-- ==== Sys2Proof/Word.lean ====
section
/-! DEFINITION. The word types of the redsp CORE: bytes, 32-bit words, floating patterns, register and channel numbers. -/

namespace Sys2Proof

/-- A byte of DMEM is 8 bits (20_memory.md R80). -/
abbrev Byte := BitVec 8

/-- Integer registers, command words, addresses and system registers are 32 bits (10_state.md R41, R52; 30_encoding.md R110). -/
abbrev Word := BitVec 32

/-- A floating bit pattern. The container is 64 bits; a `B32` pattern stands in bits 31:0 (log 6). -/
abbrev Pat := BitVec 64

/-- The number of a data register `x[0]` to `x[15]` (10_state.md R40). -/
abbrev XReg := Fin 16

/-- The number of an integer register `r[0]` to `r[15]` (10_state.md R41). -/
abbrev RReg := Fin 16

/-- A channel index as a 4-bit field can name it (30_encoding.md R114). -/
abbrev Chan := Fin 16

end Sys2Proof
end

