-- ==== Sys2Proof/Config.lean ====
section
/-! DEFINITION. The build parameters of the redsp CORE (00_scope.md R6) as plain data, and the free values: what the spec
leaves open and no proof may see. -/

namespace Sys2Proof

/-- `FMT`: the floating format of every sample, coefficient and register (00_scope.md R6, R8). -/
inductive Fmt where
  | b32
  | b64
  deriving DecidableEq, Repr

/-- `SVF_FB`: which state value the highpass line subtracts (00_scope.md R6; 44_svf.md R283; 90_conflicts.md C3). -/
inductive SvfFb where
  | hPrev
  | lPrev
  deriving DecidableEq, Repr

/-- The five reference functions that a configuration supplies (00_scope.md R6; 42_approximation.md R181). -/
inductive RefFn where
  | sin
  | cos
  | tan
  | tanh
  | log2
  deriving DecidableEq, Repr

/-- Which reference functions a build has: the correctly rounded ones of `EXCFG` (42_approximation.md R182), or the member
number `k` of a family of functions about which nothing is known (log 8). -/
inductive RefSel where
  | nearest
  | custom (k : Nat)
  deriving DecidableEq, Repr

/-- The ten fast variants `v` of 42_approximation.md R183, each with a domain and a tolerance; `log2b` is LOG2.BIT's. -/
inductive FastFn where
  | sinFast
  | sinFaster
  | tanFast
  | tanFaster
  | cosFast
  | cosFaster
  | tanhFast
  | log2Fast
  | sqrtFast
  | log2b
  deriving DecidableEq, Repr

/-- One approximation table: numerator and denominator, ascending powers (00_scope.md R6, `TBL[v]`). -/
structure Table where
  num : List Pat
  den : List Pat
  deriving DecidableEq, Repr

/-- The eight approximation tables of a build (00_scope.md R6). `log2b` holds binary32 patterns whatever `FMT` is. -/
structure Tables where
  sinFast : Table
  sinFaster : Table
  tanFast : Table
  tanFaster : Table
  tanhFast : Table
  log2Fast : Table
  sqrtFast : Table
  log2b : Table
  deriving DecidableEq, Repr

/-- An open `DOM[v]` (a closed interval) and `TOL[v]` (42_approximation.md R183). -/
structure Bound where
  lo : Rat
  hi : Rat
  tol : Rat
  deriving DecidableEq, Repr

/-- The `DOM` and `TOL` entries that R183 leaves open. No step reads them: they say what a legal table achieves. -/
structure Bounds where
  cosFast : Bound
  cosFaster : Bound
  tanhFast : Bound
  log2Fast : Bound
  sqrtFast : Bound
  deriving DecidableEq, Repr

/-- The synthesis-time parameters of one build (00_scope.md R5, R6). -/
structure Build where
  fmt : Fmt
  nch : Nat
  memBytes : Nat
  svfFb : SvfFb
  refs : RefSel
  tables : Tables
  bounds : Bounds
  deriving DecidableEq, Repr

/-- FREE VALUE: the reference functions of a configuration about which nothing is known (42_approximation.md R181, R182;
93_implementation_defined.md U6; log 8). -/
opaque Config.refFree : Nat → RefFn → Fmt → Pat → Pat

/-- FREE VALUE: what the host reads at an address that is misaligned or out of range (20_memory.md R96; log 12). -/
opaque Config.hostReadFree : Nat → Pat

/-- FREE VALUE: whether the second of two `CMD` writes made in one `BUSY` period replaces the first
(70_reset_and_hazards.md R361; 93_implementation_defined.md U13; log 11). -/
opaque Config.secondWriteKept : Nat → Bool

end Sys2Proof
end

