-- ==== Sys2Proof/Machine/Float.lean ====
section
/-! DEFINITION. IEEE 754 arithmetic of the redsp CORE, one definition for both formats (00_scope.md R8 to R17): exact
integer arithmetic on unpacked operands, then one rounding to nearest even. -/

namespace Sys2Proof.Machine

/-! ## The two formats (00_scope.md R6, R8) -/

/-- Width of the fraction field (R8). -/
def fracBits : Fmt → Nat
  | .b32 => 23
  | .b64 => 52

/-- Width of the biased exponent field (R8). -/
def expBits : Fmt → Nat
  | .b32 => 8
  | .b64 => 11

/-- Exponent bias (R8). -/
def bias : Fmt → Nat
  | .b32 => 127
  | .b64 => 1023

/-- `FLEN` (R6). -/
def flen : Fmt → Nat
  | .b32 => 32
  | .b64 => 64

/-- `EB`, bytes per element (R6). -/
def eb : Fmt → Nat
  | .b32 => 4
  | .b64 => 8

/-- Significand bits of a normal value, the implicit leading one included. -/
def prec (f : Fmt) : Nat := fracBits f + 1

/-- Exponent of the last place of a subnormal value. -/
def minExp (f : Fmt) : Int := 1 - (bias f : Int) - (fracBits f : Int)

/-- Weight of the sign bit. -/
def signWeight (f : Fmt) : Nat := 2 ^ (flen f - 1)

/-- The pattern of `+inf`: exponent all ones, fraction zero (R8). -/
def infMag (f : Fmt) : Nat := (2 ^ expBits f - 1) * 2 ^ fracBits f

/-- A pattern of format `f` in the 64-bit container: nothing above bit `FLEN - 1`. -/
def fits (f : Fmt) (v : Pat) : Bool := decide (v.toNat < 2 ^ flen f)

/-- The pattern with sign `neg` and magnitude field `mag`. -/
def pack (f : Fmt) (neg : Bool) (mag : Nat) : Pat :=
  BitVec.ofNat 64 (if neg then signWeight f + mag else mag)

/-- The sign bit of a pattern. -/
def signOf (f : Fmt) (v : Pat) : Bool := v.toNat / signWeight f % 2 == 1

/-- All bits of a pattern below its sign bit. -/
def magOf (f : Fmt) (v : Pat) : Nat := v.toNat % signWeight f

/-- `CNAN` (R11). -/
def cnan : Fmt → Pat
  | .b32 => 0x7FC00000
  | .b64 => 0x7FF8000000000000

/-- `ZERO`, `+0.0` (00_scope.md section 5.3). -/
def zero (_ : Fmt) : Pat := 0

/-- `ONE` (00_scope.md section 5.3). -/
def one : Fmt → Pat
  | .b32 => 0x3F800000
  | .b64 => 0x3FF0000000000000

/-- `TWO` (00_scope.md section 5.3). -/
def two : Fmt → Pat
  | .b32 => 0x40000000
  | .b64 => 0x4000000000000000

/-- `PI` (42_approximation.md R215). -/
def piC : Fmt → Pat
  | .b32 => 0x40490FDB
  | .b64 => 0x400921FB54442D18

/-- `TWO_PI` (42_approximation.md R215). -/
def twoPiC : Fmt → Pat
  | .b32 => 0x40C90FDB
  | .b64 => 0x401921FB54442D18

/-- `HALF_PI` (42_approximation.md R215). -/
def halfPiC : Fmt → Pat
  | .b32 => 0x3FC90FDB
  | .b64 => 0x3FF921FB54442D18

/-- `NEG_HALF_PI` (42_approximation.md R215). -/
def negHalfPiC : Fmt → Pat
  | .b32 => 0xBFC90FDB
  | .b64 => 0xBFF921FB54442D18

/-- `E_CONST` (42_approximation.md R215). -/
def eC : Fmt → Pat
  | .b32 => 0x402DF854
  | .b64 => 0x4005BF0A8B145769

/-- `SQRT2` (42_approximation.md R215). -/
def sqrt2C : Fmt → Pat
  | .b32 => 0x3FB504F3
  | .b64 => 0x3FF6A09E667F3BCD

/-! ## Unpacked operands -/

/-- What a pattern denotes (R8): `fin neg m e` is `m * 2^e`, negated when `neg`; a zero has `m = 0` and keeps its sign. -/
inductive Num where
  | nan
  | inf (neg : Bool)
  | fin (neg : Bool) (m : Nat) (e : Int)
  deriving DecidableEq, Repr

/-- The value of a pattern (R8): exponent all ones is an infinity or a NaN, exponent zero a zero or a subnormal. -/
def unpack (f : Fmt) (v : Pat) : Num :=
  let mag := magOf f v
  let ex := mag / 2 ^ fracBits f
  let fr := mag % 2 ^ fracBits f
  if ex = 2 ^ expBits f - 1 then
    if fr = 0 then .inf (signOf f v) else .nan
  else if ex = 0 then .fin (signOf f v) fr (minExp f)
  else .fin (signOf f v) (2 ^ fracBits f + fr) (minExp f + ((ex : Int) - 1))

/-- `isnan` (00_scope.md section 5.3). -/
def isNan (f : Fmt) (v : Pat) : Bool := decide (infMag f < magOf f v)

/-- The signed integer `±m`. -/
def signed (neg : Bool) (m : Nat) : Int := if neg then -(m : Int) else (m : Int)

/-! ## Rounding -/

/-- Round `m * 2^e` (or, when `sticky`, a value strictly between `m * 2^e` and `(m + 1) * 2^e`) to the magnitude field of the
nearest value of format `f`, ties to the even last fraction bit; beyond the largest finite value it is the infinity (R9).
`q` is the exponent of the last place that is kept. A caller that sets `sticky` gives `m` more than `prec f + 1` bits. -/
def roundMag (f : Fmt) (m : Nat) (e : Int) (sticky : Bool) : Nat :=
  if m = 0 then 0
  else
    let q : Int := max (e + ((m.log2 + 1 : Nat) : Int) - (prec f : Int)) (minExp f)
    let kept : Nat :=
      if q ≤ e then m * 2 ^ (e - q).toNat
      else
        let unit := 2 ^ (q - e).toNat
        let half := 2 ^ ((q - e).toNat - 1)
        let t := m / unit
        let r := m % unit
        if half < r ∨ (r = half ∧ (sticky = true ∨ t % 2 = 1)) then t + 1 else t
    min (kept + (q - minExp f).toNat * 2 ^ fracBits f) (infMag f)

/-- The rounded pattern of `±m * 2^e`. -/
def roundPat (f : Fmt) (neg : Bool) (m : Nat) (e : Int) (sticky : Bool) : Pat :=
  pack f neg (roundMag f m e sticky)

/-- The infinity of a sign. -/
def infPat (f : Fmt) (neg : Bool) : Pat := pack f neg (infMag f)

/-- The exact sum of two finite values, rounded once; an exact zero is `-0` only when both signs are `-` (R9, R10). -/
def sumFin (f : Fmt) (na : Bool) (ma : Nat) (ea : Int) (nb : Bool) (mb : Nat) (e₂ : Int) : Pat :=
  let e := min ea e₂
  let t := signed na (ma * 2 ^ (ea - e).toNat) + signed nb (mb * 2 ^ (e₂ - e).toNat)
  if t = 0 then pack f (na && nb) 0
  else roundPat f (decide (t < 0)) t.natAbs e false

/-! ## The primitives (00_scope.md section 5.3, R9 to R15) -/

/-- `fadd` (R9, R11). -/
def fadd (f : Fmt) (a b : Pat) : Pat :=
  match unpack f a, unpack f b with
  | .nan, _ => cnan f
  | .inf _, .nan => cnan f
  | .inf na, .inf nb => if na = nb then infPat f na else cnan f
  | .inf na, .fin _ _ _ => infPat f na
  | .fin _ _ _, .nan => cnan f
  | .fin _ _ _, .inf nb => infPat f nb
  | .fin na ma ea, .fin nb mb e₂ => sumFin f na ma ea nb mb e₂

/-- A pattern with its sign bit flipped. -/
def flipSign (f : Fmt) (a : Pat) : Pat := pack f (!signOf f a) (magOf f a)

/-- `fsub`: `fadd` of `a` and `b` with its sign bit flipped (R9). -/
def fsub (f : Fmt) (a b : Pat) : Pat := fadd f a (flipSign f b)

/-- `fmul` (R9, R11). -/
def fmul (f : Fmt) (a b : Pat) : Pat :=
  match unpack f a, unpack f b with
  | .nan, _ => cnan f
  | .inf _, .nan => cnan f
  | .fin _ _ _, .nan => cnan f
  | .inf na, .inf nb => infPat f (na != nb)
  | .inf na, .fin nb mb _ => if mb = 0 then cnan f else infPat f (na != nb)
  | .fin na ma _, .inf nb => if ma = 0 then cnan f else infPat f (na != nb)
  | .fin na ma ea, .fin nb mb e₂ => roundPat f (na != nb) (ma * mb) (ea + e₂) false

/-- The rounded quotient of two finite values, the divisor nonzero: enough quotient bits, and a sticky bit for the rest (R9). -/
def divFin (f : Fmt) (neg : Bool) (ma : Nat) (ea : Int) (mb : Nat) (e₂ : Int) : Pat :=
  let s := prec f + mb.log2 + 4
  let n := ma * 2 ^ s
  roundPat f neg (n / mb) (ea - e₂ - (s : Int)) (decide (n % mb ≠ 0))

/-- `fdiv` (R9, R11): `0/0` and `inf/inf` are invalid, a nonzero value over a zero is the infinity of the combined sign. -/
def fdiv (f : Fmt) (a b : Pat) : Pat :=
  match unpack f a, unpack f b with
  | .nan, _ => cnan f
  | .inf _, .nan => cnan f
  | .fin _ _ _, .nan => cnan f
  | .inf _, .inf _ => cnan f
  | .inf na, .fin nb _ _ => infPat f (na != nb)
  | .fin na _ _, .inf nb => pack f (na != nb) 0
  | .fin na ma ea, .fin nb mb e₂ =>
    if mb = 0 then (if ma = 0 then cnan f else infPat f (na != nb))
    else divFin f (na != nb) ma ea mb e₂

/-- `ffma`: the exact `a * b + c` rounded once (R10, R11). -/
def ffma (f : Fmt) (a b c : Pat) : Pat :=
  match unpack f a, unpack f b, unpack f c with
  | .nan, _, _ => cnan f
  | _, .nan, _ => cnan f
  | _, _, .nan => cnan f
  | .fin na ma ea, .fin nb mb e₂, .fin nc mc ec => sumFin f (na != nb) (ma * mb) (ea + e₂) nc mc ec
  | .fin _ _ _, .fin _ _ _, .inf nc => infPat f nc
  | .inf na, .inf nb, z => addInf (na != nb) z
  | .inf na, .fin nb mb _, z => if mb = 0 then cnan f else addInf (na != nb) z
  | .fin na ma _, .inf nb, z => if ma = 0 then cnan f else addInf (na != nb) z
where
  /-- An infinite product plus `z`: invalid when `z` is the infinity of the other sign. -/
  addInf (neg : Bool) (z : Num) : Pat :=
    match z with
    | .nan => cnan f
    | .inf nc => if neg = nc then infPat f neg else cnan f
    | .fin _ _ _ => infPat f neg

/-- Integer square root, two bits of the operand a level: `isqrt k n` is the floor of the root of `n` for `n < 4^k`. -/
def isqrt : Nat → Nat → Nat
  | 0, _ => 0
  | k + 1, n =>
    let r := 2 * isqrt k (n / 4)
    if (r + 1) * (r + 1) ≤ n then r + 1 else r

/-- The rounded square root of a positive finite value: an even exponent, enough root bits, a sticky bit (R9). -/
def sqrtFin (f : Fmt) (m : Nat) (e : Int) : Pat :=
  let s := 2 * (prec f + 3) + (e % 2).toNat
  let n := m * 2 ^ s
  let r := isqrt (n.log2 / 2 + 1) n
  roundPat f false r ((e - (s : Int)) / 2) (decide (r * r ≠ n))

/-- `fsqrt` (R9, R11): a zero keeps its sign, a negative nonzero operand is invalid. -/
def fsqrt (f : Fmt) (a : Pat) : Pat :=
  match unpack f a with
  | .nan => cnan f
  | .inf neg => if neg then cnan f else infPat f false
  | .fin neg m e =>
    if m = 0 then pack f neg 0
    else if neg then cnan f
    else sqrtFin f m e

/-- `fneg` (R12). -/
def fneg (f : Fmt) (a : Pat) : Pat := if isNan f a then cnan f else flipSign f a

/-- `fabs` (R12). -/
def fabs (f : Fmt) (a : Pat) : Pat := if isNan f a then cnan f else pack f false (magOf f a)

/-- `ffmod`: the exact remainder with the sign of `a` (R14, R11). -/
def ffmod (f : Fmt) (a b : Pat) : Pat :=
  match unpack f a, unpack f b with
  | .nan, _ => cnan f
  | .inf _, _ => cnan f
  | .fin _ _ _, .nan => cnan f
  | .fin na _ _, .inf _ => pack f na (magOf f a)
  | .fin na ma ea, .fin _ mb e₂ =>
    if mb = 0 then cnan f
    else
      let e := min ea e₂
      roundPat f na ((ma * 2 ^ (ea - e).toNat) % (mb * 2 ^ (e₂ - e).toNat)) e false

/-- Rounding of a value of format `f` to format `g` (R15). -/
def convert (f g : Fmt) (a : Pat) : Pat :=
  match unpack f a with
  | .nan => cnan g
  | .inf neg => infPat g neg
  | .fin neg m e => roundPat g neg m e false

/-- `narrow32` (R15). -/
def narrow32 (a : Pat) : Pat := convert .b64 .b32 a

/-- `widen64` (R15); every binary32 value is a binary64 value, so nothing rounds. -/
def widen64 (a : Pat) : Pat := convert .b32 .b64 a

/-- `i2f32` (R15): the binary32 pattern of a small integer. -/
def i2f32 (n : Int) : Pat := roundPat .b32 (decide (n < 0)) n.natAbs 0 false

/-! ## Comparisons (R13) -/

/-- An integer that orders the patterns that are not NaNs as their values: both zeros at 0, infinities outermost. -/
def orderKey (f : Fmt) (a : Pat) : Int := signed (signOf f a) (magOf f a)

/-- `flt`: quiet `<`, false on a NaN (R13). -/
def flt (f : Fmt) (a b : Pat) : Bool :=
  !isNan f a && !isNan f b && decide (orderKey f a < orderKey f b)

/-- `fle`: quiet `<=`, false on a NaN (R13). -/
def fle (f : Fmt) (a b : Pat) : Bool :=
  !isNan f a && !isNan f b && decide (orderKey f a ≤ orderKey f b)

/-- `fge(a, b) = fle(b, a)` (R13). -/
def fge (f : Fmt) (a b : Pat) : Bool := fle f b a

end Sys2Proof.Machine
end

