-- ==== Sys2Proof/Machine/Flags.lean ====
section
/-! DEFINITION. There are no status flags (10_state.md R45). The two Boolean results, that of WITHIN and the success flag of
SVF.SETC, are 0 or 1 in an integer register; and the selections of MIN, MAX and CLIP rest on comparisons alone. -/

namespace Sys2Proof.Machine

/-- A Boolean as an integer register holds it, all 32 bits written (10_state.md R45). -/
def boolWord (b : Bool) : Word := if b then 1 else 0

/-- `lo ≤ v ≤ hi`, the closed interval (42_approximation.md R213). -/
def withinTest (f : Fmt) (v lo hi : Pat) : Bool := fle f lo v && fle f v hi

/-- `SVF_REJECT`: `nf1 ≥ 2 - nq1`, the subtraction rounded, the comparison quiet (44_svf.md R282). -/
def svfReject (f : Fmt) (nf1 nq1 : Pat) : Bool := fge f nf1 (fsub f (two f) nq1)

/-- MIN: the second operand only when strictly smaller (42_approximation.md R210). -/
def minSel (f : Fmt) (a b : Pat) : Pat := if flt f b a then b else a

/-- MAX: the second operand only when strictly greater (42_approximation.md R211). -/
def maxSel (f : Fmt) (a b : Pat) : Pat := if flt f a b then b else a

/-- CLIP: the low bound tested first (42_approximation.md R212). -/
def clipSel (f : Fmt) (v lo hi : Pat) : Pat := if flt f v lo then lo else if flt f hi v then hi else v

end Sys2Proof.Machine
end

