-- ==== Sys2Proof/Syntax.lean ====
section
/-! DEFINITION. The command set REDSP-CMD version 1: one constructor per row of the opcode table (30_encoding.md R116). -/

namespace Sys2Proof

/-- The filter registers MFC can name (10_state.md R51). -/
inductive Csr where
  | b0
  | b1
  | b2
  | a1
  | a2
  | x1
  | x2
  | y1
  | y2
  | f1
  | q1
  | fs
  | h
  | b
  | l
  deriving DecidableEq, Repr

/-- The constants CONST can name (30_encoding.md R114; 42_approximation.md R214). -/
inductive ConstSel where
  | pi
  | twoPi
  | halfPi
  | negHalfPi
  | e
  | sqrt2
  deriving DecidableEq, Repr

/-- A command. Operands stand in the order of the assembler syntax (30_encoding.md R120); `x…` names a data register, `r…` an
integer register (R115). -/
inductive Instr where
  /-- `NOP` (R140) -/
  | nop
  /-- `SETR rd, imm16` (R141) -/
  | setr (rd : RReg) (imm : BitVec 16)
  /-- `SETRH rd, imm16` (R142) -/
  | setrh (rd : RReg) (imm : BitVec 16)
  /-- `ADDRI rd, ra, simm16` (R143) -/
  | addri (rd : RReg) (ra : RReg) (imm : BitVec 16)
  /-- `LD xd, simm16(ra)` (R144) -/
  | ld (xd : XReg) (ra : RReg) (imm : BitVec 16)
  /-- `ST xs, simm16(ra)` (R145) -/
  | st (xs : XReg) (ra : RReg) (imm : BitVec 16)
  /-- `MOV xd, xs` (R146) -/
  | mov (xd : XReg) (xs : XReg)
  /-- `MFC xd, csr[, ch]` (R147) -/
  | mfc (xd : XReg) (csr : Csr) (ch : Chan)
  /-- `POLY.HORNER xd, xa, rb, N` (R161) -/
  | polyHorner (xd : XReg) (xa : XReg) (rb : RReg) (n : BitVec 8)
  /-- `POLY.FMA2 xd, xa, rb` (R162) -/
  | polyFma2 (xd : XReg) (xa : XReg) (rb : RReg)
  /-- `POLY.ESTRIN xd, xa, rb, N` (R163) -/
  | polyEstrin (xd : XReg) (xa : XReg) (rb : RReg) (n : BitVec 8)
  /-- `POLY.RAT xd, xa, rb, rc, N` (R164) -/
  | polyRat (xd : XReg) (xa : XReg) (rb : RReg) (rc : RReg) (n : BitVec 8)
  /-- `SIN.REF xd, xa` (R186) -/
  | sinRef (xd : XReg) (xa : XReg)
  /-- `SIN.FAST xd, xa` (R187) -/
  | sinFast (xd : XReg) (xa : XReg)
  /-- `SIN.FASTER xd, xa` (R188) -/
  | sinFaster (xd : XReg) (xa : XReg)
  /-- `COS.REF xd, xa` (R189) -/
  | cosRef (xd : XReg) (xa : XReg)
  /-- `COS.FAST xd, xa` (R191) -/
  | cosFast (xd : XReg) (xa : XReg)
  /-- `COS.FASTER xd, xa` (R192) -/
  | cosFaster (xd : XReg) (xa : XReg)
  /-- `TAN.REF xd, xa` (R193) -/
  | tanRef (xd : XReg) (xa : XReg)
  /-- `TAN.FAST xd, xa` (R194) -/
  | tanFast (xd : XReg) (xa : XReg)
  /-- `TAN.FASTER xd, xa` (R195) -/
  | tanFaster (xd : XReg) (xa : XReg)
  /-- `TANH.REF xd, xa` (R196) -/
  | tanhRef (xd : XReg) (xa : XReg)
  /-- `TANH.FAST xd, xa` (R197) -/
  | tanhFast (xd : XReg) (xa : XReg)
  /-- `LOG2.REF xd, xa` (R198) -/
  | log2Ref (xd : XReg) (xa : XReg)
  /-- `LOG2.FAST xd, xa` (R199) -/
  | log2Fast (xd : XReg) (xa : XReg)
  /-- `LOG2.BIT xd, xa` (R200) -/
  | log2Bit (xd : XReg) (xa : XReg)
  /-- `SQRT.REF xd, xa` (R202) -/
  | sqrtRef (xd : XReg) (xa : XReg)
  /-- `SQRT.FAST xd, xa` (R203) -/
  | sqrtFast (xd : XReg) (xa : XReg)
  /-- `MIN xd, xa, xb` (R210) -/
  | fmin (xd : XReg) (xa : XReg) (xb : XReg)
  /-- `MAX xd, xa, xb` (R211) -/
  | fmax (xd : XReg) (xa : XReg) (xb : XReg)
  /-- `CLIP xd, xa, xb, xc` (R212) -/
  | clip (xd : XReg) (xa : XReg) (xb : XReg) (xc : XReg)
  /-- `WITHIN rd, xa, xb, xc` (R213) -/
  | within (rd : RReg) (xa : XReg) (xb : XReg) (xc : XReg)
  /-- `CONST xd, name` (R214) -/
  | const (xd : XReg) (k : ConstSel)
  /-- `BQ.LP.N xa, xb` (R235) -/
  | bqLpN (xa : XReg) (xb : XReg)
  /-- `BQ.LP.CS xa, xb, xc` (R236) -/
  | bqLpCs (xa : XReg) (xb : XReg) (xc : XReg)
  /-- `BQ.LP.D xa, xb` (R237) -/
  | bqLpD (xa : XReg) (xb : XReg)
  /-- `BQ.HP.N xa, xb` (R238) -/
  | bqHpN (xa : XReg) (xb : XReg)
  /-- `BQ.HP.CS xa, xb, xc` (R239) -/
  | bqHpCs (xa : XReg) (xb : XReg) (xc : XReg)
  /-- `BQ.HP.D xa, xb` (R240) -/
  | bqHpD (xa : XReg) (xb : XReg)
  /-- `BQ.BP.N xa, xb` (R241) -/
  | bqBpN (xa : XReg) (xb : XReg)
  /-- `BQ.BP.CS xa, xb, xc` (R242) -/
  | bqBpCs (xa : XReg) (xb : XReg) (xc : XReg)
  /-- `BQ.BP.D xa, xb` (R243) -/
  | bqBpD (xa : XReg) (xb : XReg)
  /-- `BQ.BR.N xa, xb` (R244) -/
  | bqBrN (xa : XReg) (xb : XReg)
  /-- `BQ.BR.CS xa, xb, xc` (R245) -/
  | bqBrCs (xa : XReg) (xb : XReg) (xc : XReg)
  /-- `BQ.BR.D xa, xb` (R246) -/
  | bqBrD (xa : XReg) (xb : XReg)
  /-- `BQ.AP.N xa, xb` (R247) -/
  | bqApN (xa : XReg) (xb : XReg)
  /-- `BQ.AP.CS xa, xb, xc` (R248) -/
  | bqApCs (xa : XReg) (xb : XReg) (xc : XReg)
  /-- `BQ.AP.D xa, xb` (R249) -/
  | bqApD (xa : XReg) (xb : XReg)
  /-- `BQ.PROC xd, xa, ch` (R250) -/
  | bqProc (xd : XReg) (xa : XReg) (ch : Chan)
  /-- `BQ.BUF ra, rb, ch` (R251) -/
  | bqBuf (ra : RReg) (rb : RReg) (ch : Chan)
  /-- `BQ.OPT ra, rb, ch` (R252) -/
  | bqOpt (ra : RReg) (rb : RReg) (ch : Chan)
  /-- `BQ.OPT2 rd, ra, rb, ch` (R253) -/
  | bqOpt2 (rd : RReg) (ra : RReg) (rb : RReg) (ch : Chan)
  /-- `BQ.MBUF ra, rb` (R254) -/
  | bqMbuf (ra : RReg) (rb : RReg)
  /-- `BQ.MOPT ra, rb` (R255) -/
  | bqMopt (ra : RReg) (rb : RReg)
  /-- `BQ.MOPT2 rd, ra, rb` (R256) -/
  | bqMopt2 (rd : RReg) (ra : RReg) (rb : RReg)
  /-- `SVF.RESET xa` (R284) -/
  | svfReset (xa : XReg)
  /-- `SVF.SETC rd, xa, xb` (R285) -/
  | svfSetc (rd : RReg) (xa : XReg) (xb : XReg)
  /-- `SVF.SETU xa, xb` (R286) -/
  | svfSetu (xa : XReg) (xb : XReg)
  /-- `SVF.PROC.HP xd, xa, ch` (R287) -/
  | svfProcHp (xd : XReg) (xa : XReg) (ch : Chan)
  /-- `SVF.PROC.BP xd, xa, ch` (R288) -/
  | svfProcBp (xd : XReg) (xa : XReg) (ch : Chan)
  /-- `SVF.PROC.LP xd, xa, ch` (R289) -/
  | svfProcLp (xd : XReg) (xa : XReg) (ch : Chan)
  /-- `SVF.FRAME rd, xa, ch` (R290) -/
  | svfFrame (rd : RReg) (xa : XReg) (ch : Chan)
  /-- `SVF.BUF.HP ra, rb, ch` (R291) -/
  | svfBufHp (ra : RReg) (rb : RReg) (ch : Chan)
  /-- `SVF.BUF.BP ra, rb, ch` (R292) -/
  | svfBufBp (ra : RReg) (rb : RReg) (ch : Chan)
  /-- `SVF.BUF.LP ra, rb, ch` (R293) -/
  | svfBufLp (ra : RReg) (rb : RReg) (ch : Chan)
  /-- `SVF.MBUF.HP ra, rb` (R294) -/
  | svfMbufHp (ra : RReg) (rb : RReg)
  /-- `SVF.MBUF.BP ra, rb` (R295) -/
  | svfMbufBp (ra : RReg) (rb : RReg)
  /-- `SVF.MBUF.LP ra, rb` (R296) -/
  | svfMbufLp (ra : RReg) (rb : RReg)
  deriving DecidableEq, Repr

end Sys2Proof
end

