-- ==== Sys2Proof/WellFormed.lean ====
section
/-! DEFINITION. The value constraints that the types of the operands do not express (30_encoding.md R116). -/

namespace Sys2Proof

/-- Whether a filter register is one per channel (10_state.md R51). -/
def Csr.perChannel : Csr → Bool
  | .x1 | .x2 | .y1 | .y2 | .h | .b | .l => true
  | .b0 | .b1 | .b2 | .a1 | .a2 | .f1 | .q1 | .fs => false

/-- `N ≠ 0` (R114), and for MFC a channel of 0 when the register is not per channel (R116). Every other operand is free. -/
def Instr.wellFormed : Instr → Bool
  | .polyHorner _ _ _ n => n != 0
  | .polyEstrin _ _ _ n => n != 0
  | .polyRat _ _ _ _ n => n != 0
  | .mfc _ csr ch => csr.perChannel || ch == 0
  | .nop | .setr _ _ | .setrh _ _ | .addri _ _ _ | .ld _ _ _ | .st _ _ _ | .mov _ _ | .polyFma2 _ _ _ | .sinRef _ _ |
    .sinFast _ _ | .sinFaster _ _ | .cosRef _ _ | .cosFast _ _ | .cosFaster _ _ | .tanRef _ _ | .tanFast _ _ |
    .tanFaster _ _ | .tanhRef _ _ | .tanhFast _ _ | .log2Ref _ _ | .log2Fast _ _ | .log2Bit _ _ | .sqrtRef _ _ |
    .sqrtFast _ _ | .fmin _ _ _ | .fmax _ _ _ | .clip _ _ _ _ | .within _ _ _ _ | .const _ _ | .bqLpN _ _ |
    .bqLpCs _ _ _ | .bqLpD _ _ | .bqHpN _ _ | .bqHpCs _ _ _ | .bqHpD _ _ | .bqBpN _ _ | .bqBpCs _ _ _ | .bqBpD _ _ |
    .bqBrN _ _ | .bqBrCs _ _ _ | .bqBrD _ _ | .bqApN _ _ | .bqApCs _ _ _ | .bqApD _ _ | .bqProc _ _ _ |
    .bqBuf _ _ _ | .bqOpt _ _ _ | .bqOpt2 _ _ _ _ | .bqMbuf _ _ | .bqMopt _ _ | .bqMopt2 _ _ _ | .svfReset _ |
    .svfSetc _ _ _ | .svfSetu _ _ | .svfProcHp _ _ _ | .svfProcBp _ _ _ | .svfProcLp _ _ _ | .svfFrame _ _ _ |
    .svfBufHp _ _ _ | .svfBufBp _ _ _ | .svfBufLp _ _ _ | .svfMbufHp _ _ | .svfMbufBp _ _ | .svfMbufLp _ _ => true

end Sys2Proof
end

