-- ==== Sys2Proof/Decode.lean ====
section
/-! DEFINITION. The command encoding (30_encoding.md R110 to R118): a decoder, total on 32-bit words and rejecting by name, and
after it an encoder written from the same table. -/

namespace Sys2Proof

/-! ## Fields (30_encoding.md R111, R112) -/

/-- The fields of format R. Format I's `imm16` is `b`, `c` and `imm8` together. -/
structure Fields where
  op : BitVec 8
  d : BitVec 4
  a : BitVec 4
  b : BitVec 4
  c : BitVec 4
  imm8 : BitVec 8
  deriving DecidableEq, Repr

/-- The fields of a word (R111). -/
def fieldsOf (w : Word) : Fields where
  op := w.extractLsb' 24 8
  d := w.extractLsb' 20 4
  a := w.extractLsb' 16 4
  b := w.extractLsb' 12 4
  c := w.extractLsb' 8 4
  imm8 := w.extractLsb' 0 8

/-- The word with given fields (R111). -/
def wordOf (f : Fields) : Word :=
  BitVec.ofNat 32 (f.op.toNat * 2 ^ 24 + f.d.toNat * 2 ^ 20 + f.a.toNat * 2 ^ 16 + f.b.toNat * 2 ^ 12 +
    f.c.toNat * 2 ^ 8 + f.imm8.toNat)

/-- `imm16`, bits 15:0 (R112). -/
def imm16Of (f : Fields) : BitVec 16 :=
  BitVec.ofNat 16 (f.b.toNat * 2 ^ 12 + f.c.toNat * 2 ^ 8 + f.imm8.toNat)

/-- `ch`, bits 3:0 of `imm8` (R114). -/
def chOf (f : Fields) : Chan := (f.imm8.extractLsb' 0 4).toFin

/-- Bits 7:4 of `imm8`: zero beside `ch`, or `00` and `sel` (R114). -/
def selOf (f : Fields) : BitVec 4 := f.imm8.extractLsb' 4 4

/-! ## CSR numbers (10_state.md R51) and constant selectors (30_encoding.md R114) -/

/-- The filter register of a CSR number; every other number is reserved. -/
def csrOfNumber (k : BitVec 8) : Option Csr :=
  match k with
  | 0x00#8 => some .b0
  | 0x01#8 => some .b1
  | 0x02#8 => some .b2
  | 0x03#8 => some .a1
  | 0x04#8 => some .a2
  | 0x08#8 => some .x1
  | 0x09#8 => some .x2
  | 0x0A#8 => some .y1
  | 0x0B#8 => some .y2
  | 0x10#8 => some .f1
  | 0x11#8 => some .q1
  | 0x12#8 => some .fs
  | 0x18#8 => some .h
  | 0x19#8 => some .b
  | 0x1A#8 => some .l
  | _ => none

/-- The CSR number of a filter register (10_state.md R51). -/
def csrNumber : Csr → BitVec 8
  | .b0 => 0x00#8
  | .b1 => 0x01#8
  | .b2 => 0x02#8
  | .a1 => 0x03#8
  | .a2 => 0x04#8
  | .x1 => 0x08#8
  | .x2 => 0x09#8
  | .y1 => 0x0A#8
  | .y2 => 0x0B#8
  | .f1 => 0x10#8
  | .q1 => 0x11#8
  | .fs => 0x12#8
  | .h => 0x18#8
  | .b => 0x19#8
  | .l => 0x1A#8

/-- The constant of a selector `k`; 6 to 255 are reserved (42_approximation.md R214). -/
def constOfNumber (k : BitVec 8) : Option ConstSel :=
  match k with
  | 0#8 => some .pi
  | 1#8 => some .twoPi
  | 2#8 => some .halfPi
  | 3#8 => some .negHalfPi
  | 4#8 => some .e
  | 5#8 => some .sqrt2
  | _ => none

/-- The selector of a constant (42_approximation.md R214). -/
def constNumber : ConstSel → BitVec 8
  | .pi => 0#8
  | .twoPi => 1#8
  | .halfPi => 2#8
  | .negHalfPi => 3#8
  | .e => 4#8
  | .sqrt2 => 5#8

/-! ## Decoding -/

/-- Why a word is illegal (30_encoding.md R118). Every reason raises `E_ILLEGAL` with `FINFO = 0`. -/
inductive Illegal where
  /-- the opcode is not listed -/
  | unlistedOpcode
  /-- a nonzero bit in a field the command does not use -/
  | unusedField
  /-- a reserved variant, form, `sel`, `k` or `csr`, or `imm8 ≠ 2` in POLY.FMA2 -/
  | reservedSelector
  /-- `N = 0` -/
  | zeroLength
  /-- `a ≠ 0` in MFC of a register that is not per channel -/
  | csrChannel
  deriving DecidableEq, Repr

/-- The command `i`, when `ok`; otherwise illegal for the reason `why`. -/
def onlyIf (ok : Bool) (why : Illegal) (i : Instr) : Except Illegal Instr :=
  if ok then .ok i else .error why

/-- Data movement and CONST, opcodes 0x00 to 0x08 (R116). -/
def decodeMove (f : Fields) : Except Illegal Instr :=
  match f.op with
  | 0x00#8 => onlyIf (f.d == 0 && f.a == 0 && f.b == 0 && f.c == 0 && f.imm8 == 0) .unusedField .nop
  | 0x01#8 => onlyIf (f.a == 0) .unusedField (.setr f.d.toFin (imm16Of f))
  | 0x02#8 => onlyIf (f.a == 0) .unusedField (.setrh f.d.toFin (imm16Of f))
  | 0x03#8 => .ok (.addri f.d.toFin f.a.toFin (imm16Of f))
  | 0x04#8 => .ok (.ld f.d.toFin f.a.toFin (imm16Of f))
  | 0x05#8 => .ok (.st f.d.toFin f.a.toFin (imm16Of f))
  | 0x06#8 => onlyIf (f.b == 0 && f.c == 0 && f.imm8 == 0) .unusedField (.mov f.d.toFin f.a.toFin)
  | 0x07#8 =>
    match constOfNumber f.imm8 with
    | some k => onlyIf (f.a == 0 && f.b == 0 && f.c == 0) .unusedField (.const f.d.toFin k)
    | none => .error .reservedSelector
  | 0x08#8 =>
    match csrOfNumber f.imm8 with
    | some csr =>
      if f.b == 0 && f.c == 0 then onlyIf (csr.perChannel || f.a == 0) .csrChannel (.mfc f.d.toFin csr f.a.toFin)
      else .error .unusedField
    | none => .error .reservedSelector
  | _ => .error .unlistedOpcode

/-- The Polynomial Evaluator, opcodes 0x10 to 0x13 (R116). -/
def decodePoly (f : Fields) : Except Illegal Instr :=
  match f.op with
  | 0x10#8 =>
    if f.c == 0 then onlyIf (f.imm8 != 0) .zeroLength (.polyHorner f.d.toFin f.a.toFin f.b.toFin f.imm8)
    else .error .unusedField
  | 0x11#8 =>
    if f.c == 0 then onlyIf (f.imm8 == 2) .reservedSelector (.polyFma2 f.d.toFin f.a.toFin f.b.toFin)
    else .error .unusedField
  | 0x12#8 =>
    if f.c == 0 then onlyIf (f.imm8 != 0) .zeroLength (.polyEstrin f.d.toFin f.a.toFin f.b.toFin f.imm8)
    else .error .unusedField
  | 0x13#8 => onlyIf (f.imm8 != 0) .zeroLength (.polyRat f.d.toFin f.a.toFin f.b.toFin f.c.toFin f.imm8)
  | _ => .error .unlistedOpcode

/-- The variants of one approximated function: `imm8` selects, `b` and `c` are unused (R114, R180). -/
def approxVariant (f : Fields) (pick : BitVec 8 → Option (XReg → XReg → Instr)) : Except Illegal Instr :=
  match pick f.imm8 with
  | some i => onlyIf (f.b == 0 && f.c == 0) .unusedField (i f.d.toFin f.a.toFin)
  | none => .error .reservedSelector

/-- The variants of SIN (R180). -/
def sinVariant (v : BitVec 8) : Option (XReg → XReg → Instr) :=
  match v with
  | 0#8 => some .sinRef
  | 1#8 => some .sinFast
  | 2#8 => some .sinFaster
  | _ => none

/-- The variants of COS (R180). -/
def cosVariant (v : BitVec 8) : Option (XReg → XReg → Instr) :=
  match v with
  | 0#8 => some .cosRef
  | 1#8 => some .cosFast
  | 2#8 => some .cosFaster
  | _ => none

/-- The variants of TAN (R180). -/
def tanVariant (v : BitVec 8) : Option (XReg → XReg → Instr) :=
  match v with
  | 0#8 => some .tanRef
  | 1#8 => some .tanFast
  | 2#8 => some .tanFaster
  | _ => none

/-- The variants of TANH (R180). -/
def tanhVariant (v : BitVec 8) : Option (XReg → XReg → Instr) :=
  match v with
  | 0#8 => some .tanhRef
  | 1#8 => some .tanhFast
  | _ => none

/-- The variants of LOG2 (R180). -/
def log2Variant (v : BitVec 8) : Option (XReg → XReg → Instr) :=
  match v with
  | 0#8 => some .log2Ref
  | 1#8 => some .log2Fast
  | 3#8 => some .log2Bit
  | _ => none

/-- The variants of SQRT (R180). -/
def sqrtVariant (v : BitVec 8) : Option (XReg → XReg → Instr) :=
  match v with
  | 0#8 => some .sqrtRef
  | 1#8 => some .sqrtFast
  | _ => none

/-- The Approximation Engine, opcodes 0x20 to 0x25 and 0x28 to 0x2B (R116). -/
def decodeApprox (f : Fields) : Except Illegal Instr :=
  match f.op with
  | 0x20#8 => approxVariant f sinVariant
  | 0x21#8 => approxVariant f cosVariant
  | 0x22#8 => approxVariant f tanVariant
  | 0x23#8 => approxVariant f tanhVariant
  | 0x24#8 => approxVariant f log2Variant
  | 0x25#8 => approxVariant f sqrtVariant
  | 0x28#8 => onlyIf (f.c == 0 && f.imm8 == 0) .unusedField (.fmin f.d.toFin f.a.toFin f.b.toFin)
  | 0x29#8 => onlyIf (f.c == 0 && f.imm8 == 0) .unusedField (.fmax f.d.toFin f.a.toFin f.b.toFin)
  | 0x2A#8 => onlyIf (f.imm8 == 0) .unusedField (.clip f.d.toFin f.a.toFin f.b.toFin f.c.toFin)
  | 0x2B#8 => onlyIf (f.imm8 == 0) .unusedField (.within f.d.toFin f.a.toFin f.b.toFin f.c.toFin)
  | _ => .error .unlistedOpcode

/-- The three call forms of one biquad response: `imm8` is 0 `N`, 1 `CS`, 2 `D`; `d` is unused, and `c` in `N` and `D` (R114). -/
def bqForm (f : Fields) (n : XReg → XReg → Instr) (cs : XReg → XReg → XReg → Instr) (dir : XReg → XReg → Instr) :
    Except Illegal Instr :=
  match f.imm8 with
  | 0#8 => onlyIf (f.d == 0 && f.c == 0) .unusedField (n f.a.toFin f.b.toFin)
  | 1#8 => onlyIf (f.d == 0) .unusedField (cs f.a.toFin f.b.toFin f.c.toFin)
  | 2#8 => onlyIf (f.d == 0 && f.c == 0) .unusedField (dir f.a.toFin f.b.toFin)
  | _ => .error .reservedSelector

/-- The Biquad Filter, opcodes 0x30 to 0x34 and 0x38 to 0x3E (R116). -/
def decodeBiquad (f : Fields) : Except Illegal Instr :=
  match f.op with
  | 0x30#8 => bqForm f .bqLpN .bqLpCs .bqLpD
  | 0x31#8 => bqForm f .bqHpN .bqHpCs .bqHpD
  | 0x32#8 => bqForm f .bqBpN .bqBpCs .bqBpD
  | 0x33#8 => bqForm f .bqBrN .bqBrCs .bqBrD
  | 0x34#8 => bqForm f .bqApN .bqApCs .bqApD
  | 0x38#8 =>
    onlyIf (f.b == 0 && f.c == 0 && selOf f == 0) .unusedField (.bqProc f.d.toFin f.a.toFin (chOf f))
  | 0x39#8 =>
    onlyIf (f.d == 0 && f.c == 0 && selOf f == 0) .unusedField (.bqBuf f.a.toFin f.b.toFin (chOf f))
  | 0x3A#8 =>
    onlyIf (f.d == 0 && f.c == 0 && selOf f == 0) .unusedField (.bqOpt f.a.toFin f.b.toFin (chOf f))
  | 0x3B#8 =>
    onlyIf (f.c == 0 && selOf f == 0) .unusedField (.bqOpt2 f.d.toFin f.a.toFin f.b.toFin (chOf f))
  | 0x3C#8 => onlyIf (f.d == 0 && f.c == 0 && f.imm8 == 0) .unusedField (.bqMbuf f.a.toFin f.b.toFin)
  | 0x3D#8 => onlyIf (f.d == 0 && f.c == 0 && f.imm8 == 0) .unusedField (.bqMopt f.a.toFin f.b.toFin)
  | 0x3E#8 => onlyIf (f.c == 0 && f.imm8 == 0) .unusedField (.bqMopt2 f.d.toFin f.a.toFin f.b.toFin)
  | _ => .error .unlistedOpcode

/-- The three outputs of one state-variable command: `imm8[5:4]` is 0 `HP`, 1 `BP`, 2 `LP`, 3 reserved; `imm8[7:6]` is unused
(R114). -/
def svfSel (f : Fields) (ok : Bool) (hp bp lp : Instr) : Except Illegal Instr :=
  match selOf f with
  | 0#4 => onlyIf ok .unusedField hp
  | 1#4 => onlyIf ok .unusedField bp
  | 2#4 => onlyIf ok .unusedField lp
  | 3#4 => .error .reservedSelector
  | _ => .error .unusedField

/-- The State-Variable Filter, opcodes 0x40 to 0x46 (R116). -/
def decodeSvf (f : Fields) : Except Illegal Instr :=
  match f.op with
  | 0x40#8 => onlyIf (f.d == 0 && f.b == 0 && f.c == 0 && f.imm8 == 0) .unusedField (.svfReset f.a.toFin)
  | 0x41#8 => onlyIf (f.c == 0 && f.imm8 == 0) .unusedField (.svfSetc f.d.toFin f.a.toFin f.b.toFin)
  | 0x42#8 => onlyIf (f.d == 0 && f.c == 0 && f.imm8 == 0) .unusedField (.svfSetu f.a.toFin f.b.toFin)
  | 0x43#8 =>
    svfSel f (f.b == 0 && f.c == 0) (.svfProcHp f.d.toFin f.a.toFin (chOf f))
      (.svfProcBp f.d.toFin f.a.toFin (chOf f)) (.svfProcLp f.d.toFin f.a.toFin (chOf f))
  | 0x44#8 =>
    onlyIf (f.b == 0 && f.c == 0 && selOf f == 0) .unusedField (.svfFrame f.d.toFin f.a.toFin (chOf f))
  | 0x45#8 =>
    svfSel f (f.d == 0 && f.c == 0) (.svfBufHp f.a.toFin f.b.toFin (chOf f))
      (.svfBufBp f.a.toFin f.b.toFin (chOf f)) (.svfBufLp f.a.toFin f.b.toFin (chOf f))
  | 0x46#8 =>
    svfSel f (f.d == 0 && f.c == 0 && chOf f == 0) (.svfMbufHp f.a.toFin f.b.toFin)
      (.svfMbufBp f.a.toFin f.b.toFin) (.svfMbufLp f.a.toFin f.b.toFin)
  | _ => .error .unlistedOpcode

/-- Decoding of the fields: the opcodes are grouped by unit (92_eei_decisions.md D15). -/
def decodeFields (f : Fields) : Except Illegal Instr :=
  match f.op.extractLsb' 4 4 with
  | 0x0#4 => decodeMove f
  | 0x1#4 => decodePoly f
  | 0x2#4 => decodeApprox f
  | 0x3#4 => decodeBiquad f
  | 0x4#4 => decodeSvf f
  | _ => .error .unlistedOpcode

/-- Decoding is total and depends on nothing but the word (R117). -/
def decode (w : Word) : Except Illegal Instr := decodeFields (fieldsOf w)

/-! ## Encoding -/

/-- Format R (R111). -/
def fmtR (op : BitVec 8) (d a b c : Fin 16) (imm8 : BitVec 8) : Fields where
  op := op
  d := BitVec.ofFin d
  a := BitVec.ofFin a
  b := BitVec.ofFin b
  c := BitVec.ofFin c
  imm8 := imm8

/-- Format I (R112). -/
def fmtI (op : BitVec 8) (d a : Fin 16) (imm : BitVec 16) : Fields where
  op := op
  d := BitVec.ofFin d
  a := BitVec.ofFin a
  b := imm.extractLsb' 12 4
  c := imm.extractLsb' 8 4
  imm8 := imm.extractLsb' 0 8

/-- `imm8` with `sel` (or zero) in bits 7:4 and `ch` in bits 3:0 (R114). -/
def selCh (sel : BitVec 4) (ch : Chan) : BitVec 8 := BitVec.ofNat 8 (sel.toNat * 2 ^ 4 + ch.val)

/-- The fields of a command (R116); a field the command does not use is 0. -/
def encodeFields : Instr → Fields
  | .nop => fmtR 0x00 0 0 0 0 0x00
  | .setr rd imm => fmtI 0x01 rd 0 imm
  | .setrh rd imm => fmtI 0x02 rd 0 imm
  | .addri rd ra imm => fmtI 0x03 rd ra imm
  | .ld xd ra imm => fmtI 0x04 xd ra imm
  | .st xs ra imm => fmtI 0x05 xs ra imm
  | .mov xd xs => fmtR 0x06 xd xs 0 0 0x00
  | .mfc xd csr ch => fmtR 0x08 xd ch 0 0 (csrNumber csr)
  | .polyHorner xd xa rb n => fmtR 0x10 xd xa rb 0 n
  | .polyFma2 xd xa rb => fmtR 0x11 xd xa rb 0 0x02
  | .polyEstrin xd xa rb n => fmtR 0x12 xd xa rb 0 n
  | .polyRat xd xa rb rc n => fmtR 0x13 xd xa rb rc n
  | .sinRef xd xa => fmtR 0x20 xd xa 0 0 0x00
  | .sinFast xd xa => fmtR 0x20 xd xa 0 0 0x01
  | .sinFaster xd xa => fmtR 0x20 xd xa 0 0 0x02
  | .cosRef xd xa => fmtR 0x21 xd xa 0 0 0x00
  | .cosFast xd xa => fmtR 0x21 xd xa 0 0 0x01
  | .cosFaster xd xa => fmtR 0x21 xd xa 0 0 0x02
  | .tanRef xd xa => fmtR 0x22 xd xa 0 0 0x00
  | .tanFast xd xa => fmtR 0x22 xd xa 0 0 0x01
  | .tanFaster xd xa => fmtR 0x22 xd xa 0 0 0x02
  | .tanhRef xd xa => fmtR 0x23 xd xa 0 0 0x00
  | .tanhFast xd xa => fmtR 0x23 xd xa 0 0 0x01
  | .log2Ref xd xa => fmtR 0x24 xd xa 0 0 0x00
  | .log2Fast xd xa => fmtR 0x24 xd xa 0 0 0x01
  | .log2Bit xd xa => fmtR 0x24 xd xa 0 0 0x03
  | .sqrtRef xd xa => fmtR 0x25 xd xa 0 0 0x00
  | .sqrtFast xd xa => fmtR 0x25 xd xa 0 0 0x01
  | .fmin xd xa xb => fmtR 0x28 xd xa xb 0 0x00
  | .fmax xd xa xb => fmtR 0x29 xd xa xb 0 0x00
  | .clip xd xa xb xc => fmtR 0x2A xd xa xb xc 0x00
  | .within rd xa xb xc => fmtR 0x2B rd xa xb xc 0x00
  | .const xd k => fmtR 0x07 xd 0 0 0 (constNumber k)
  | .bqLpN xa xb => fmtR 0x30 0 xa xb 0 0x00
  | .bqLpCs xa xb xc => fmtR 0x30 0 xa xb xc 0x01
  | .bqLpD xa xb => fmtR 0x30 0 xa xb 0 0x02
  | .bqHpN xa xb => fmtR 0x31 0 xa xb 0 0x00
  | .bqHpCs xa xb xc => fmtR 0x31 0 xa xb xc 0x01
  | .bqHpD xa xb => fmtR 0x31 0 xa xb 0 0x02
  | .bqBpN xa xb => fmtR 0x32 0 xa xb 0 0x00
  | .bqBpCs xa xb xc => fmtR 0x32 0 xa xb xc 0x01
  | .bqBpD xa xb => fmtR 0x32 0 xa xb 0 0x02
  | .bqBrN xa xb => fmtR 0x33 0 xa xb 0 0x00
  | .bqBrCs xa xb xc => fmtR 0x33 0 xa xb xc 0x01
  | .bqBrD xa xb => fmtR 0x33 0 xa xb 0 0x02
  | .bqApN xa xb => fmtR 0x34 0 xa xb 0 0x00
  | .bqApCs xa xb xc => fmtR 0x34 0 xa xb xc 0x01
  | .bqApD xa xb => fmtR 0x34 0 xa xb 0 0x02
  | .bqProc xd xa ch => fmtR 0x38 xd xa 0 0 (selCh 0 ch)
  | .bqBuf ra rb ch => fmtR 0x39 0 ra rb 0 (selCh 0 ch)
  | .bqOpt ra rb ch => fmtR 0x3A 0 ra rb 0 (selCh 0 ch)
  | .bqOpt2 rd ra rb ch => fmtR 0x3B rd ra rb 0 (selCh 0 ch)
  | .bqMbuf ra rb => fmtR 0x3C 0 ra rb 0 0x00
  | .bqMopt ra rb => fmtR 0x3D 0 ra rb 0 0x00
  | .bqMopt2 rd ra rb => fmtR 0x3E rd ra rb 0 0x00
  | .svfReset xa => fmtR 0x40 0 xa 0 0 0x00
  | .svfSetc rd xa xb => fmtR 0x41 rd xa xb 0 0x00
  | .svfSetu xa xb => fmtR 0x42 0 xa xb 0 0x00
  | .svfProcHp xd xa ch => fmtR 0x43 xd xa 0 0 (selCh 0 ch)
  | .svfProcBp xd xa ch => fmtR 0x43 xd xa 0 0 (selCh 1 ch)
  | .svfProcLp xd xa ch => fmtR 0x43 xd xa 0 0 (selCh 2 ch)
  | .svfFrame rd xa ch => fmtR 0x44 rd xa 0 0 (selCh 0 ch)
  | .svfBufHp ra rb ch => fmtR 0x45 0 ra rb 0 (selCh 0 ch)
  | .svfBufBp ra rb ch => fmtR 0x45 0 ra rb 0 (selCh 1 ch)
  | .svfBufLp ra rb ch => fmtR 0x45 0 ra rb 0 (selCh 2 ch)
  | .svfMbufHp ra rb => fmtR 0x46 0 ra rb 0 0x00
  | .svfMbufBp ra rb => fmtR 0x46 0 ra rb 0 0x10
  | .svfMbufLp ra rb => fmtR 0x46 0 ra rb 0 0x20

/-- The command word of an instruction. -/
def encode (i : Instr) : Word := wordOf (encodeFields i)

/-- The decoder's answer for an instruction of `nbits` bits, numbered as the opcode table numbers them. Every command is one
32-bit word that the host writes whole, so no byte order arises (R110). -/
def decodeTableWord (nbits w : Nat) : Option Instr :=
  match decode (BitVec.ofNat 32 (w % 2 ^ nbits)) with
  | .ok i => some i
  | .error _ => none

/-! ## The opcode map (30_encoding.md R116) -/

/-- One row of R116: a word `w` selects it when `w &&& mask = pattern`. -/
structure OpcodeRow where
  mnemonic : String
  pattern : Word
  mask : Word
  deriving DecidableEq, Repr

/-- The 68 rows, in the table's order. -/
def opcodeRows : List OpcodeRow := [
  ⟨"NOP", 0x00000000, 0xFFFFFFFF⟩,
  ⟨"SETR", 0x01000000, 0xFF0F0000⟩,
  ⟨"SETRH", 0x02000000, 0xFF0F0000⟩,
  ⟨"ADDRI", 0x03000000, 0xFF000000⟩,
  ⟨"LD", 0x04000000, 0xFF000000⟩,
  ⟨"ST", 0x05000000, 0xFF000000⟩,
  ⟨"MOV", 0x06000000, 0xFF00FFFF⟩,
  ⟨"MFC", 0x08000000, 0xFF00FF00⟩,
  ⟨"POLY.HORNER", 0x10000000, 0xFF000F00⟩,
  ⟨"POLY.FMA2", 0x11000002, 0xFF000FFF⟩,
  ⟨"POLY.ESTRIN", 0x12000000, 0xFF000F00⟩,
  ⟨"POLY.RAT", 0x13000000, 0xFF000000⟩,
  ⟨"SIN.REF", 0x20000000, 0xFF00FFFF⟩,
  ⟨"SIN.FAST", 0x20000001, 0xFF00FFFF⟩,
  ⟨"SIN.FASTER", 0x20000002, 0xFF00FFFF⟩,
  ⟨"COS.REF", 0x21000000, 0xFF00FFFF⟩,
  ⟨"COS.FAST", 0x21000001, 0xFF00FFFF⟩,
  ⟨"COS.FASTER", 0x21000002, 0xFF00FFFF⟩,
  ⟨"TAN.REF", 0x22000000, 0xFF00FFFF⟩,
  ⟨"TAN.FAST", 0x22000001, 0xFF00FFFF⟩,
  ⟨"TAN.FASTER", 0x22000002, 0xFF00FFFF⟩,
  ⟨"TANH.REF", 0x23000000, 0xFF00FFFF⟩,
  ⟨"TANH.FAST", 0x23000001, 0xFF00FFFF⟩,
  ⟨"LOG2.REF", 0x24000000, 0xFF00FFFF⟩,
  ⟨"LOG2.FAST", 0x24000001, 0xFF00FFFF⟩,
  ⟨"LOG2.BIT", 0x24000003, 0xFF00FFFF⟩,
  ⟨"SQRT.REF", 0x25000000, 0xFF00FFFF⟩,
  ⟨"SQRT.FAST", 0x25000001, 0xFF00FFFF⟩,
  ⟨"MIN", 0x28000000, 0xFF000FFF⟩,
  ⟨"MAX", 0x29000000, 0xFF000FFF⟩,
  ⟨"CLIP", 0x2A000000, 0xFF0000FF⟩,
  ⟨"WITHIN", 0x2B000000, 0xFF0000FF⟩,
  ⟨"CONST", 0x07000000, 0xFF0FFF00⟩,
  ⟨"BQ.LP.N", 0x30000000, 0xFFF00FFF⟩,
  ⟨"BQ.LP.CS", 0x30000001, 0xFFF000FF⟩,
  ⟨"BQ.LP.D", 0x30000002, 0xFFF00FFF⟩,
  ⟨"BQ.HP.N", 0x31000000, 0xFFF00FFF⟩,
  ⟨"BQ.HP.CS", 0x31000001, 0xFFF000FF⟩,
  ⟨"BQ.HP.D", 0x31000002, 0xFFF00FFF⟩,
  ⟨"BQ.BP.N", 0x32000000, 0xFFF00FFF⟩,
  ⟨"BQ.BP.CS", 0x32000001, 0xFFF000FF⟩,
  ⟨"BQ.BP.D", 0x32000002, 0xFFF00FFF⟩,
  ⟨"BQ.BR.N", 0x33000000, 0xFFF00FFF⟩,
  ⟨"BQ.BR.CS", 0x33000001, 0xFFF000FF⟩,
  ⟨"BQ.BR.D", 0x33000002, 0xFFF00FFF⟩,
  ⟨"BQ.AP.N", 0x34000000, 0xFFF00FFF⟩,
  ⟨"BQ.AP.CS", 0x34000001, 0xFFF000FF⟩,
  ⟨"BQ.AP.D", 0x34000002, 0xFFF00FFF⟩,
  ⟨"BQ.PROC", 0x38000000, 0xFF00FFF0⟩,
  ⟨"BQ.BUF", 0x39000000, 0xFFF00FF0⟩,
  ⟨"BQ.OPT", 0x3A000000, 0xFFF00FF0⟩,
  ⟨"BQ.OPT2", 0x3B000000, 0xFF000FF0⟩,
  ⟨"BQ.MBUF", 0x3C000000, 0xFFF00FFF⟩,
  ⟨"BQ.MOPT", 0x3D000000, 0xFFF00FFF⟩,
  ⟨"BQ.MOPT2", 0x3E000000, 0xFF000FFF⟩,
  ⟨"SVF.RESET", 0x40000000, 0xFFF0FFFF⟩,
  ⟨"SVF.SETC", 0x41000000, 0xFF000FFF⟩,
  ⟨"SVF.SETU", 0x42000000, 0xFFF00FFF⟩,
  ⟨"SVF.PROC.HP", 0x43000000, 0xFF00FFF0⟩,
  ⟨"SVF.PROC.BP", 0x43000010, 0xFF00FFF0⟩,
  ⟨"SVF.PROC.LP", 0x43000020, 0xFF00FFF0⟩,
  ⟨"SVF.FRAME", 0x44000000, 0xFF00FFF0⟩,
  ⟨"SVF.BUF.HP", 0x45000000, 0xFFF00FF0⟩,
  ⟨"SVF.BUF.BP", 0x45000010, 0xFFF00FF0⟩,
  ⟨"SVF.BUF.LP", 0x45000020, 0xFFF00FF0⟩,
  ⟨"SVF.MBUF.HP", 0x46000000, 0xFFF00FFF⟩,
  ⟨"SVF.MBUF.BP", 0x46000010, 0xFFF00FFF⟩,
  ⟨"SVF.MBUF.LP", 0x46000020, 0xFFF00FFF⟩]

/-- The mnemonic of a command (R116). -/
def Instr.mnemonic : Instr → String
  | .nop => "NOP"
  | .setr _ _ => "SETR"
  | .setrh _ _ => "SETRH"
  | .addri _ _ _ => "ADDRI"
  | .ld _ _ _ => "LD"
  | .st _ _ _ => "ST"
  | .mov _ _ => "MOV"
  | .mfc _ _ _ => "MFC"
  | .polyHorner _ _ _ _ => "POLY.HORNER"
  | .polyFma2 _ _ _ => "POLY.FMA2"
  | .polyEstrin _ _ _ _ => "POLY.ESTRIN"
  | .polyRat _ _ _ _ _ => "POLY.RAT"
  | .sinRef _ _ => "SIN.REF"
  | .sinFast _ _ => "SIN.FAST"
  | .sinFaster _ _ => "SIN.FASTER"
  | .cosRef _ _ => "COS.REF"
  | .cosFast _ _ => "COS.FAST"
  | .cosFaster _ _ => "COS.FASTER"
  | .tanRef _ _ => "TAN.REF"
  | .tanFast _ _ => "TAN.FAST"
  | .tanFaster _ _ => "TAN.FASTER"
  | .tanhRef _ _ => "TANH.REF"
  | .tanhFast _ _ => "TANH.FAST"
  | .log2Ref _ _ => "LOG2.REF"
  | .log2Fast _ _ => "LOG2.FAST"
  | .log2Bit _ _ => "LOG2.BIT"
  | .sqrtRef _ _ => "SQRT.REF"
  | .sqrtFast _ _ => "SQRT.FAST"
  | .fmin _ _ _ => "MIN"
  | .fmax _ _ _ => "MAX"
  | .clip _ _ _ _ => "CLIP"
  | .within _ _ _ _ => "WITHIN"
  | .const _ _ => "CONST"
  | .bqLpN _ _ => "BQ.LP.N"
  | .bqLpCs _ _ _ => "BQ.LP.CS"
  | .bqLpD _ _ => "BQ.LP.D"
  | .bqHpN _ _ => "BQ.HP.N"
  | .bqHpCs _ _ _ => "BQ.HP.CS"
  | .bqHpD _ _ => "BQ.HP.D"
  | .bqBpN _ _ => "BQ.BP.N"
  | .bqBpCs _ _ _ => "BQ.BP.CS"
  | .bqBpD _ _ => "BQ.BP.D"
  | .bqBrN _ _ => "BQ.BR.N"
  | .bqBrCs _ _ _ => "BQ.BR.CS"
  | .bqBrD _ _ => "BQ.BR.D"
  | .bqApN _ _ => "BQ.AP.N"
  | .bqApCs _ _ _ => "BQ.AP.CS"
  | .bqApD _ _ => "BQ.AP.D"
  | .bqProc _ _ _ => "BQ.PROC"
  | .bqBuf _ _ _ => "BQ.BUF"
  | .bqOpt _ _ _ => "BQ.OPT"
  | .bqOpt2 _ _ _ _ => "BQ.OPT2"
  | .bqMbuf _ _ => "BQ.MBUF"
  | .bqMopt _ _ => "BQ.MOPT"
  | .bqMopt2 _ _ _ => "BQ.MOPT2"
  | .svfReset _ => "SVF.RESET"
  | .svfSetc _ _ _ => "SVF.SETC"
  | .svfSetu _ _ => "SVF.SETU"
  | .svfProcHp _ _ _ => "SVF.PROC.HP"
  | .svfProcBp _ _ _ => "SVF.PROC.BP"
  | .svfProcLp _ _ _ => "SVF.PROC.LP"
  | .svfFrame _ _ _ => "SVF.FRAME"
  | .svfBufHp _ _ _ => "SVF.BUF.HP"
  | .svfBufBp _ _ _ => "SVF.BUF.BP"
  | .svfBufLp _ _ _ => "SVF.BUF.LP"
  | .svfMbufHp _ _ => "SVF.MBUF.HP"
  | .svfMbufBp _ _ => "SVF.MBUF.BP"
  | .svfMbufLp _ _ => "SVF.MBUF.LP"

end Sys2Proof
end

