-- ==== Sys2Proof/Machine/Reference.lean ====
section
/-! DEFINITION. The reference functions `REF_SIN`, `REF_COS`, `REF_TAN`, `REF_TANH`, `REF_LOG2` (42_approximation.md R181,
R182). `EXCFG` takes the value nearest to the real function with the C library's special values; it is computed here in
fixed-point integers with at least 190 significant bits, then rounded once (log 8). -/

namespace Sys2Proof.Machine

/-! ## Fixed-point series: `w` fraction bits, integers scaled by `2^w`, every division truncating -/

/-- The sum of `t / n - t·z / (n + 2) + …` with terms of alternating or equal sign: `t` is the running power of `1/b`,
`sq` divides it each time. -/
def arctanSum (sq : Nat) : Nat → Nat → Nat → Bool → Int → Int
  | 0, _, _, _, acc => acc
  | k + 1, t, n, neg, acc =>
    if t = 0 then acc
    else arctanSum sq k (t / sq) (n + 2) (!neg) (acc + signed neg (t / n))

/-- `arctan (1 / b)`, `w` fraction bits. -/
def arctanInv (w b : Nat) : Int := arctanSum (b * b) (w + 8) (2 ^ w / b) 1 false 0

/-- `π` by Machin's formula, with `w` fraction bits computed from `w + 32`. -/
def piFixed (w : Nat) : Nat :=
  ((16 * arctanInv (w + 32) 5 - 4 * arctanInv (w + 32) 239).toNat) / 2 ^ 32

/-- `Σ z^(2k+1) / (2k+1)`, the series of `artanh z`: `p` is the running power, `sq` is `z²`. -/
def artanhSum (w sq : Nat) : Nat → Nat → Nat → Nat → Nat
  | 0, _, _, acc => acc
  | k + 1, p, n, acc =>
    if p = 0 then acc
    else artanhSum w sq k (p * sq / 2 ^ w) (n + 2) (acc + p / n)

/-- `artanh z` of `z = num / den`, `w` fraction bits. -/
def artanhFixed (w num den : Nat) : Nat :=
  let z := num * 2 ^ w / den
  artanhSum w (z * z / 2 ^ w) (w + 8) z 1 0

/-- The Taylor terms `t · y² / (n (n+1))` from one term on; `alt` alternates their signs (sine, cosine) or not (the
hyperbolic ones). -/
def taylorSum (w ysq : Nat) (alt : Bool) : Nat → Nat → Nat → Bool → Int → Int
  | 0, _, _, _, acc => acc
  | k + 1, t, n, neg, acc =>
    if t = 0 then acc
    else taylorSum w ysq alt k (t * ysq / 2 ^ w / (n * (n + 1))) (n + 2) (neg != alt) (acc + signed neg t)

/-- `sin y`, or `sinh y` when `alt` is false. -/
def oddTaylor (w y : Nat) (alt : Bool) : Nat :=
  (taylorSum w (y * y / 2 ^ w) alt (w + 8) y 2 false 0).toNat

/-- `cos y`, or `cosh y` when `alt` is false. -/
def evenTaylor (w y : Nat) (alt : Bool) : Nat :=
  (taylorSum w (y * y / 2 ^ w) alt (w + 8) (2 ^ w) 1 false 0).toNat

/-! ## The functions on a finite nonzero magnitude `m * 2^e` -/

/-- Fraction bits that leave 190 significant bits in every result: more for very small and for very large operands. -/
def refBits (m : Nat) (e : Int) : Nat := 320 + (e + (m.log2 : Int)).natAbs

/-- `m * 2^e` in fixed point; exact, since `refBits` exceeds the operand's fraction bits. -/
def toFixed (w m : Nat) (e : Int) : Nat :=
  if 0 ≤ e + (w : Int) then m * 2 ^ (e + (w : Int)).toNat else m / 2 ^ (-(e + (w : Int))).toNat

/-- Sine and cosine of a magnitude: quadrant `y / (π/2)`, Taylor on the rest. Each is a sign and a fixed-point magnitude. -/
def sinCosFixed (w m : Nat) (e : Int) : (Bool × Nat) × (Bool × Nat) :=
  let y := toFixed w m e
  let h := piFixed (w + 64)                      -- π with 64 further bits; π/2 is h / 2
  let y' := y * 2 ^ 65
  let k := y' / h
  let rest := (y' % h) / 2 ^ 65
  let s := oddTaylor w rest true
  let c := evenTaylor w rest true
  if k % 4 = 0 then ((false, s), (false, c))
  else if k % 4 = 1 then ((false, c), (true, s))
  else if k % 4 = 2 then ((true, s), (true, c))
  else ((true, c), (false, s))

/-- The nearest value to a fixed-point result that is not exact. -/
def fromFixed (f : Fmt) (neg : Bool) (w n : Nat) : Pat := roundPat f neg n (-(w : Int)) true

/-- `tanh` of a magnitude: above 32 the nearest value is 1 in both formats. -/
def tanhFixed (f : Fmt) (neg : Bool) (m : Nat) (e : Int) : Pat :=
  if 5 < e + (m.log2 : Int) then pack f neg (magOf f (one f))
  else
    let w := refBits m e
    let y := toFixed w m e
    fromFixed f neg w (oddTaylor w y false * 2 ^ w / evenTaylor w y false)

/-- `log2` of `m * 2^e`: the exponent, plus `2 artanh((t - 1)/(t + 1)) / ln 2` of the mantissa `t` in `[1, 2)`. -/
def log2Fixed (f : Fmt) (m : Nat) (e : Int) : Pat :=
  let w := 400
  let p := 2 ^ m.log2
  let whole : Int := e + (m.log2 : Int)
  let part := artanhFixed w (m - p) (m + p) * 2 ^ w / artanhFixed w 1 3
  let v : Int := whole * (2 ^ w : Nat) + (part : Int)
  fromFixed f (decide (v < 0)) w v.natAbs

/-! ## `EXCFG`'s reference functions (42_approximation.md R182) -/

/-- The `FMT` value nearest to the real function, and R182's special operands. -/
def nearestRef (fn : RefFn) (f : Fmt) (x : Pat) : Pat :=
  match fn, unpack f x with
  | _, .nan => cnan f
  | .sin, .inf _ => cnan f
  | .cos, .inf _ => cnan f
  | .tan, .inf _ => cnan f
  | .tanh, .inf neg => pack f neg (magOf f (one f))
  | .log2, .inf neg => if neg then cnan f else infPat f false
  | .sin, .fin neg m e =>
    if m = 0 then pack f neg 0
    else
      let w := refBits m e
      let s := (sinCosFixed w m e).1
      fromFixed f (neg != s.1) w s.2
  | .cos, .fin _ m e =>
    if m = 0 then one f
    else
      let w := refBits m e
      let c := (sinCosFixed w m e).2
      fromFixed f c.1 w c.2
  | .tan, .fin neg m e =>
    if m = 0 then pack f neg 0
    else
      let w := refBits m e
      let sc := sinCosFixed w m e
      fromFixed f (neg != (sc.1.1 != sc.2.1)) w (sc.1.2 * 2 ^ w / sc.2.2)
  | .tanh, .fin neg m e => if m = 0 then pack f neg 0 else tanhFixed f neg m e
  | .log2, .fin neg m e =>
    if m = 0 then infPat f true
    else if neg then cnan f
    else log2Fixed f m e

/-- `v` cut to the `FLEN` bits of the format. -/
def cut (f : Fmt) (v : Pat) : Pat := BitVec.ofNat 64 (v.toNat % 2 ^ flen f)

/-- `REF_f` of a build: a total function from `FMT` patterns to `FMT` patterns (R181), the nearest value or a function about
which nothing is known. -/
def refApply (b : Build) (fn : RefFn) (x : Pat) : Pat :=
  match b.refs with
  | .nearest => nearestRef fn b.fmt x
  | .custom k => cut b.fmt (Config.refFree k fn b.fmt (cut b.fmt x))

end Sys2Proof.Machine
end

