-- ==== Sys2Proof/Machine/Builds.lean ====
section
/-! DEFINITION. Which builds exist (00_scope.md R5, R6) and the example build `EXCFG` (00_scope.md R6; 42_approximation.md
R183, R184), in both formats. -/

namespace Sys2Proof.Machine

/-- A table is legal when its two sequences have one length, 1 to 255, and hold patterns of the format (00_scope.md R6). -/
def tableLegal (f : Fmt) (t : Table) : Bool :=
  t.num.length == t.den.length && decide (1 ≤ t.num.length) && decide (t.num.length ≤ 255) &&
    t.num.all (fits f) && t.den.all (fits f)

/-- The eight tables of a build; the bit-manipulation table is binary32 whatever `FMT` is. -/
def tablesLegal (f : Fmt) (t : Tables) : Bool :=
  tableLegal f t.sinFast && tableLegal f t.sinFaster && tableLegal f t.tanFast && tableLegal f t.tanFaster &&
    tableLegal f t.tanhFast && tableLegal f t.log2Fast && tableLegal f t.sqrtFast && tableLegal .b32 t.log2b

/-- The legal values of the parameters (00_scope.md R6): `NCH` 1 to 16, `MEM_BYTES` a multiple of 8 from 8 to 2^31. The accuracy
properties of the functions and tables are stated in Safety.lean. -/
def buildLegal (b : Build) : Bool :=
  decide (1 ≤ b.nch) && decide (b.nch ≤ 16) && decide (b.memBytes % 8 = 0) && decide (8 ≤ b.memBytes) &&
    decide (b.memBytes ≤ 2 ^ 31) && tablesLegal b.fmt b.tables

/-- `EXCFG`'s tables for `FMT = B32` (42_approximation.md R184), ascending powers. -/
def excfgTables32 : Tables where
  sinFast :=
    { num := [0, 0x48226C00, 0, 0xC6ADE800, 0, 0x4409C000], den := [0x48226C00, 0, 0x45AAA000, 0, 0x42960000, 0] }
  sinFaster :=
    { num := [0, 0x45B7C000, 0, 0xC41B0000, 0], den := [0x45B7C000, 0, 0x43B40000, 0, 0x41300000] }
  tanFast :=
    { num := [0, 0x446C4000, 0, 0xC2D20000, 0, 0x3F800000], den := [0x446C4000, 0, 0xC3D20000, 0, 0x41700000, 0] }
  tanFaster :=
    { num := [0, 0x3F800000, 0, 0xBD9D3B52], den := [0x3F800000, 0, 0xBECF817B, 0] }
  tanhFast :=
    { num := [0, 0x446C4000, 0, 0x42D20000, 0, 0x3F800000], den := [0x446C4000, 0, 0x43D20000, 0, 0x41700000, 0] }
  log2Fast :=
    { num := [0xC08A7FAC, 0, 0x408A7FAC], den := [0x3F800000, 0x40800000, 0x3F800000] }
  sqrtFast :=
    { num := [0x3F800000, 0x41200000, 0x40A00000], den := [0x40A00000, 0x41200000, 0x3F800000] }
  log2b :=
    { num := [0xC08A7FAC, 0, 0x408A7FAC], den := [0x3F800000, 0x40800000, 0x3F800000] }

/-- `EXCFG`'s tables for `FMT = B64` (42_approximation.md R184); `LOG2B` stays binary32. -/
def excfgTables64 : Tables where
  sinFast :=
    { num := [0, 0x41044D8000000000, 0, 0xC0D5BD0000000000, 0, 0x4081380000000000],
      den := [0x41044D8000000000, 0, 0x40B5540000000000, 0, 0x4052C00000000000, 0] }
  sinFaster :=
    { num := [0, 0x40B6F80000000000, 0, 0xC083600000000000, 0],
      den := [0x40B6F80000000000, 0, 0x4076800000000000, 0, 0x4026000000000000] }
  tanFast :=
    { num := [0, 0x408D880000000000, 0, 0xC05A400000000000, 0, 0x3FF0000000000000],
      den := [0x408D880000000000, 0, 0xC07A400000000000, 0, 0x402E000000000000, 0] }
  tanFaster :=
    { num := [0, 0x3FF0000000000000, 0, 0xBFB3A76A4718F381],
      den := [0x3FF0000000000000, 0, 0xBFD9F02F6222C720, 0] }
  tanhFast :=
    { num := [0, 0x408D880000000000, 0, 0x405A400000000000, 0, 0x3FF0000000000000],
      den := [0x408D880000000000, 0, 0x407A400000000000, 0, 0x402E000000000000, 0] }
  log2Fast :=
    { num := [0xC0114FF58BE0A23F, 0, 0x40114FF58BE0A23F],
      den := [0x3FF0000000000000, 0x4010000000000000, 0x3FF0000000000000] }
  sqrtFast :=
    { num := [0x3FF0000000000000, 0x4024000000000000, 0x4014000000000000],
      den := [0x4014000000000000, 0x4024000000000000, 0x3FF0000000000000] }
  log2b := excfgTables32.log2b

/-- `EXCFG`'s tables in a format. -/
def excfgTables : Fmt → Tables
  | .b32 => excfgTables32
  | .b64 => excfgTables64

/-- `EXCFG`'s values of the open `DOM` and `TOL` entries (42_approximation.md R183). -/
def excfgBounds : Bounds where
  cosFast := { lo := -100, hi := 100, tol := 1 / 20 }
  cosFaster := { lo := -100, hi := 100, tol := 1 / 10 }
  tanhFast := { lo := -4, hi := 4, tol := 1 / 20 }
  log2Fast := { lo := 1 / 2, hi := 2, tol := 1 / 200 }
  sqrtFast := { lo := 1 / 4, hi := 4, tol := 1 / 20 }

/-- `EXCFG` with its format chosen: two channels, 64 KiB, the literal feedback tap, correctly rounded reference functions
(00_scope.md R6). `EXCFG` itself is `excfg .b32`. -/
def excfg (f : Fmt) : Build where
  fmt := f
  nch := 2
  memBytes := 65536
  svfFb := .hPrev
  refs := .nearest
  tables := excfgTables f
  bounds := excfgBounds

end Sys2Proof.Machine
end

