-- ==== Sys2Proof/Machine/State.lean ====
section
/-! DEFINITION. The architectural state of the redsp CORE as plain data (10_state.md), the reasons a step can stop, and the
state after reset (10_state.md R57). -/

namespace Sys2Proof.Machine

/-- DMEM as the cells that differ from what an unlisted address reads as, addresses strictly rising (20_memory.md R80). -/
abbrev Memory := List Host.Cell

/-- What an unlisted byte of DMEM reads as. The spec leaves DMEM unspecified after reset (10_state.md R57): DESIGN CHOICE 0
(log 4), unsafe. -/
def unlistedByte : Byte := 0

/-- The canonical form: addresses strictly rising, no cell equal to what an unlisted address reads as. -/
abbrev Memory.wf (m : Memory) : Prop :=
  (m.map Prod.fst).Pairwise (· < ·) ∧ ∀ c ∈ m, c.2 ≠ unlistedByte

/-- The biquad coefficient set, shared by all channels (10_state.md R46). -/
structure BqCoef where
  b0 : Pat
  b1 : Pat
  b2 : Pat
  a1 : Pat
  a2 : Pat
  deriving DecidableEq, Repr

/-- The biquad delay state of one channel: the last two inputs and outputs, `x1` and `y1` the more recent (10_state.md R47). -/
structure BqDelay where
  x1 : Pat
  x2 : Pat
  y1 : Pat
  y2 : Pat
  deriving DecidableEq, Repr

/-- The state-variable filter's coefficients and recorded sample rate (10_state.md R48). -/
structure SvfCoef where
  f1 : Pat
  q1 : Pat
  fs : Pat
  deriving DecidableEq, Repr

/-- The state-variable filter's running values of one channel (10_state.md R49). -/
structure SvfChan where
  h : Pat
  b : Pat
  l : Pat
  deriving DecidableEq, Repr

/-- The run state (10_state.md R53). -/
inductive RunState where
  | idle
  | busy
  | fault
  deriving DecidableEq, Repr

/-- The six causes of 60_exceptions.md R311. -/
inductive Cause where
  | illegal
  | channel
  | count
  | align
  | access
  | overlap
  deriving DecidableEq, Repr

/-- The system registers of 10_state.md R52, as the host names them. -/
inductive SysReg where
  | cmd
  | status
  | cause
  | finfo
  | fcmd
  | cfg
  deriving DecidableEq, Repr

/-- The access widths of the host, in bytes 1, 2, 4 and 8 (20_memory.md R96). -/
inductive HostSize where
  | w1
  | w2
  | w4
  | w8
  deriving DecidableEq, Repr

/-- The transactions of the host (20_memory.md R96). `wait` is the model's own: the host stands back while a command runs
(log 9). -/
inductive HostTx where
  | reset
  | issue (w : Word)
  | read (addr : Word) (size : HostSize)
  | write (addr : Word) (size : HostSize) (v : BitVec 64)
  | readSys (reg : SysReg)
  | wait
  deriving DecidableEq, Repr

/-- The state of the machine. The last four fields are the model's own (INVENTORY.md, State). -/
structure State where
  /-- data registers `x[0..15]` (R40) -/
  x : Vector Pat 16
  /-- integer registers `r[0..15]` (R41) -/
  r : Vector Word 16
  /-- `bq.b0 .. bq.a2` (R46) -/
  bq : BqCoef
  /-- `bq.x1[c] .. bq.y2[c]` (R47); the build has the channels below `NCH` (log 7) -/
  bqd : Vector BqDelay 16
  /-- `svf.f1, svf.q1, svf.fs` (R48) -/
  svf : SvfCoef
  /-- `svf.h[c], svf.b[c], svf.l[c]` (R49); the build has the channels below `NCH` (log 7) -/
  svfc : Vector SvfChan 16
  /-- DMEM (R54) -/
  dmem : Memory
  /-- run state (R53) -/
  run : RunState
  /-- `CAUSE.CODE` (R52) -/
  cause : BitVec 4
  /-- `FINFO` (R52) -/
  finfo : Word
  /-- `FCMD` (R52) -/
  fcmd : Word
  /-- `CMD`: the command word accepted last (R52) -/
  cmd : Word
  /-- a `CMD` write made in `BUSY` that waits (20_memory.md R96; 70_reset_and_hazards.md R361) -/
  waiting : Option Word
  /-- the build parameters (00_scope.md R6); no step writes them (R55; log 1) -/
  build : Build
  /-- the host's transactions still to come, oldest first (log 9) -/
  host : List HostTx
  /-- what the last host read returned (log 12) -/
  hostData : BitVec 64
  /-- numbers the free values (log 13) -/
  free : Nat
  deriving DecidableEq, Repr

/-- The machine stops. -/
inductive Fault where
  /-- Raised by `step` alone, in a state whose build parameters are illegal (00_scope.md R5; 60_exceptions.md R310: a
  "Configuration error", "construction is rejected"). Safe: no such hardware exists. -/
  | configurationError
  deriving DecidableEq, Repr

/-- No meaning for the instruction. -/
inductive Refusal where
  /-- Raised by `exec` alone, for an instruction the model gives no meaning; no instruction of this model is refused. Safe. -/
  | notModelled (mnemonic : String)
  deriving DecidableEq, Repr

/-- The state of a build right after reset (10_state.md R57; 70_reset_and_hazards.md R351). The registers and DMEM, which the
spec leaves unspecified, are zero (logs 3, 4): unsafe. -/
def State.powerOn (b : Build) : State where
  x := Vector.replicate 16 0
  r := Vector.replicate 16 0
  bq := { b0 := 0, b1 := 0, b2 := 0, a1 := 0, a2 := 0 }
  bqd := Vector.replicate 16 { x1 := 0, x2 := 0, y1 := 0, y2 := 0 }
  svf := { f1 := 0, q1 := 0, fs := 0 }
  svfc := Vector.replicate 16 { h := 0, b := 0, l := 0 }
  dmem := []
  run := .idle
  cause := 0
  finfo := 0
  fcmd := 0
  cmd := 0
  waiting := none
  build := b
  host := []
  hostData := 0
  free := 0

/-- The machine right after reset, built as `EXCFG` (00_scope.md R6; log 2). -/
def State.reset : State := State.powerOn (excfg .b32)

end Sys2Proof.Machine
end

