-- ==== Sys2Proof/Machine/Ops.lean ====
section
/-! DEFINITION. The named operations over DMEM, the register files, the filter registers and the system registers; the checks
of a command; fault entry (60_exceptions.md R320) and the way back (R322, 70_reset_and_hazards.md R350). -/

namespace Sys2Proof.Machine

/-! ## DMEM (20_memory.md R80 to R86) -/

/-- The byte at an address. -/
def readByte : Memory → Nat → Byte
  | [], _ => unlistedByte
  | (b, v) :: m, a => if a = b then v else readByte m a

/-- A cell in front of a memory, unless its byte is what an unlisted address reads as. -/
def consCell (a : Nat) (v : Byte) (m : Memory) : Memory := if v = unlistedByte then m else (a, v) :: m

/-- The memory with one byte replaced, in canonical form. -/
def writeByte : Memory → Nat → Byte → Memory
  | [], a, v => consCell a v []
  | (b, u) :: m, a, v =>
    if a < b then consCell a v ((b, u) :: m)
    else if a = b then consCell a v m
    else (b, u) :: writeByte m a v

/-- The `n` bytes from `a` as a little-endian number (R82, R84). -/
def readNat (m : Memory) (a : Nat) : Nat → Nat
  | 0 => 0
  | n + 1 => (readByte m a).toNat + 256 * readNat m (a + 1) n

/-- `MemRead(addr, n)` for `n ≤ 8` (R84). -/
def memRead (m : Memory) (a n : Nat) : BitVec 64 := BitVec.ofNat 64 (readNat m a n)

/-- The low `n` bytes of a number, little-endian from `a` (R82, R85). -/
def writeNat (m : Memory) (a : Nat) : Nat → Nat → Memory
  | 0, _ => m
  | n + 1, v => writeNat (writeByte m a (BitVec.ofNat 8 v)) (a + 1) n (v / 256)

/-- `MemWrite(addr, n, v)` for `n ≤ 8` (R85). -/
def memWrite (m : Memory) (a n : Nat) (v : BitVec 64) : Memory := writeNat m a n v.toNat

/-- `Elem(addr)` (00_scope.md section 5.2). -/
def elem (f : Fmt) (m : Memory) (a : Nat) : Pat := memRead m a (eb f)

/-- `Elem(addr) <- v` (00_scope.md section 5.2). -/
def setElem (f : Fmt) (m : Memory) (a : Nat) (v : Pat) : Memory := memWrite m a (eb f) v

/-- The address of element `n` of a region with base `base`, in unbounded integers (R87). -/
def elemAddr (f : Fmt) (base n : Nat) : Nat := base + n * eb f

/-- `count` consecutive elements from `base`, ascending. -/
def elems (f : Fmt) (m : Memory) (base count : Nat) : List Pat :=
  (List.range count).map fun n => elem f m (elemAddr f base n)

/-! ## Register files and filter registers -/

/-- `x[i]` (10_state.md R40). -/
def State.getX (s : State) (i : XReg) : Pat := s.x[i]

/-- `x[i] <- v`. -/
def State.setX (s : State) (i : XReg) (v : Pat) : State := { s with x := s.x.set i v }

/-- `r[i]` (10_state.md R41). -/
def State.getR (s : State) (i : RReg) : Word := s.r[i]

/-- `r[i] <- v`. -/
def State.setR (s : State) (i : RReg) (v : Word) : State := { s with r := s.r.set i v }

/-- The biquad delay state of channel `c` (10_state.md R47). -/
def State.getDelay (s : State) (c : Chan) : BqDelay := s.bqd[c]

/-- The biquad delay state of channel `c` replaced. -/
def State.setDelay (s : State) (c : Chan) (d : BqDelay) : State := { s with bqd := s.bqd.set c d }

/-- The state-variable channel state of channel `c` (10_state.md R49). -/
def State.getSvf (s : State) (c : Chan) : SvfChan := s.svfc[c]

/-- The state-variable channel state of channel `c` replaced. -/
def State.setSvf (s : State) (c : Chan) (v : SvfChan) : State := { s with svfc := s.svfc.set c v }

/-- All five biquad coefficients at once (10_state.md R46). -/
def State.setBq (s : State) (k : BqCoef) : State := { s with bq := k }

/-- `svf.f1` and `svf.q1` together (10_state.md R48). -/
def State.setSvfCoef (s : State) (f1 q1 : Pat) : State := { s with svf := { s.svf with f1 := f1, q1 := q1 } }

/-- DMEM replaced. -/
def State.setDmem (s : State) (m : Memory) : State := { s with dmem := m }

/-- `FMT` of the build. -/
def State.fmt (s : State) : Fmt := s.build.fmt

/-! ## Fault entry and checks (60_exceptions.md R311, R319 to R321) -/

/-- `CAUSE.CODE` of a cause (R311). -/
def causeCode : Cause → BitVec 4
  | .illegal => 1
  | .channel => 2
  | .count => 3
  | .align => 4
  | .access => 5
  | .overlap => 6

/-- `raise E_x(info)`: a cause and the value it records. -/
structure Raised where
  cause : Cause
  info : Word
  deriving DecidableEq, Repr

/-- FAULT ENTRY (R320): `CAUSE`, `FINFO`, `FCMD` and the run state, nothing else. -/
def State.raise (s : State) (e : Raised) : State :=
  { s with run := .fault, cause := causeCode e.cause, finfo := e.info, fcmd := s.cmd }

/-- THE WAY BACK (R322): the reset of 70_reset_and_hazards.md R350, the only exit from `FAULT`. The registers and DMEM, which
the spec leaves unspecified, take the values of `State.powerOn` (log 5); the host's side of the model stays. -/
def State.hostReset (s : State) : State :=
  { State.powerOn s.build with host := s.host, hostData := s.hostData, free := s.free }

/-- The first check that fails, in the order listed (R319). -/
def firstRaised : List (Option Raised) → Option Raised
  | [] => none
  | some e :: _ => some e
  | none :: cs => firstRaised cs

/-- The end of every command: fault entry when a check fails, otherwise its effect. All checks stand before every write
(30_encoding.md R122). -/
def State.checked (s : State) (check : Option Raised) (effect : State) : Host.Outcome State Fault Refusal :=
  match check with
  | some e => .next (s.raise e)
  | none => .next effect

/-- `CheckRegion(base, count, size, align)` in unbounded integers (20_memory.md R88). -/
def checkRegion (b : Build) (base : Word) (count size align : Nat) : Option Raised :=
  if count = 0 then none
  else if base.toNat % align ≠ 0 then some ⟨.align, base⟩
  else if b.memBytes < base.toNat + count * size then some ⟨.access, base⟩
  else none

/-- `CheckRegion(base, count, EB, EB)`. -/
def checkElems (b : Build) (base : Word) (count : Nat) : Option Raised :=
  checkRegion b base count (eb b.fmt) (eb b.fmt)

/-- `CheckRegion(T, NCH, 4, 4)`, a pointer table (20_memory.md R90). -/
def checkTable (b : Build) (base : Word) : Option Raised := checkRegion b base b.nch 4 4

/-- `ch < NCH` (R313). -/
def checkChannel (b : Build) (c : Chan) : Option Raised :=
  if c.val < b.nch then none else some ⟨.channel, BitVec.ofNat 32 c.val⟩

/-- `count ≥ 2` in the optimized forms (R314). -/
def checkCount (count : Word) : Option Raised :=
  if count.toNat < 2 then some ⟨.count, count⟩ else none

/-- The byte ranges of `len` bytes from `i` and from `o` share no byte; otherwise `E_OVERLAP(o)` (R317). -/
def checkOverlap (i o : Word) (len : Nat) : Option Raised :=
  if i.toNat < o.toNat + len ∧ o.toNat < i.toNat + len then some ⟨.overlap, o⟩ else none

/-! ## System registers (10_state.md R52) and the host's transactions (20_memory.md R96) -/

/-- The `irq` line (60_exceptions.md R323). -/
def State.irq (s : State) : Bool := s.run == .fault

/-- `CFG`, hardwired by the build (10_state.md R52). -/
def cfgWord (b : Build) : Word :=
  BitVec.ofNat 32 ((if b.fmt = .b64 then 1 else 0) + 16 * (b.nch - 1) + (if b.svfFb = .lPrev then 256 else 0))

/-- `STATUS` (10_state.md R52, R53). -/
def statusWord : RunState → Word
  | .idle => 0
  | .busy => 1
  | .fault => 2

/-- `HostReadSys`: a system register as the host reads it; `CMD` reads 0 (R52). -/
def State.readSys (s : State) : SysReg → Word
  | .cmd => 0
  | .status => statusWord s.run
  | .cause => s.cause.setWidth 32
  | .finfo => s.finfo
  | .fcmd => s.fcmd
  | .cfg => cfgWord s.build

/-- The byte offset of a system register on the host port (R52). -/
def sysOffset : SysReg → Word
  | .cmd => 0x00
  | .status => 0x04
  | .cause => 0x08
  | .finfo => 0x0C
  | .fcmd => 0x10
  | .cfg => 0x14

/-- Bytes of a host access (R96). -/
def hostBytes : HostSize → Nat
  | .w1 => 1
  | .w2 => 2
  | .w4 => 4
  | .w8 => 8

/-- A host access that is performed: aligned and inside DMEM (R96). -/
def hostInRange (b : Build) (addr : Word) (size : HostSize) : Bool :=
  decide (addr.toNat % hostBytes size = 0) && decide (addr.toNat + hostBytes size ≤ b.memBytes)

/-- `HostRead(addr, n)` on DMEM: an access that is not performed returns a free value (R96; log 12). -/
def State.hostRead (s : State) (addr : Word) (size : HostSize) : State :=
  if hostInRange s.build addr size then { s with hostData := memRead s.dmem addr.toNat (hostBytes size) }
  else { s with hostData := Config.hostReadFree s.free, free := s.free + 1 }

/-- `HostWrite(addr, n, v)` on DMEM: an access that is not in range is not performed and raises nothing (R96). -/
def State.hostWrite (s : State) (addr : Word) (size : HostSize) (v : BitVec 64) : State :=
  if hostInRange s.build addr size then s.setDmem (memWrite s.dmem addr.toNat (hostBytes size) v) else s

/-- `HostReadSys` (R96): any time. -/
def State.hostReadSys (s : State) (reg : SysReg) : State := { s with hostData := (s.readSys reg).setWidth 64 }

/-- `HostIssue(w)` accepted: the run state becomes `BUSY` (10_state.md R53). -/
def State.accept (s : State) (w : Word) : State := { s with run := .busy, cmd := w }

/-- `HostIssue(w)` in `BUSY`: the write waits (R96). Of two that wait in one `BUSY` period a free value keeps one
(70_reset_and_hazards.md R361; log 11). -/
def State.holdWrite (s : State) (w : Word) : State :=
  match s.waiting with
  | none => { s with waiting := some w }
  | some _ =>
    if Config.secondWriteKept s.free then { s with waiting := some w, free := s.free + 1 }
    else { s with free := s.free + 1 }

/-- The host's list without its first entry. -/
def State.popHost (s : State) : State := { s with host := s.host.tail }

end Sys2Proof.Machine
end

