-- ==== Sys2Proof/Machine/Operands.lean ====
section
/-! DEFINITION. Operand forms: the effective address of LD and ST (20_memory.md R87), coefficient sequences (41_polynomial.md
R160), pointer tables (20_memory.md R90), the filter register an MFC names (10_state.md R51) and the constants
(42_approximation.md R214). -/

namespace Sys2Proof.Machine

/-- `sext_32(imm16)` (30_encoding.md R113). -/
def sext32 (imm : BitVec 16) : Word := imm.signExtend 32

/-- `(r[a] + sext_32(imm16)) mod 2^32` (40_data_movement.md R143; 20_memory.md R87). -/
def State.addOffset (s : State) (ra : RReg) (imm : BitVec 16) : Word := s.getR ra + sext32 imm

/-- The coefficient sequence of `n` elements at `r[b]`, ascending powers (41_polynomial.md R160). -/
def State.coeffs (s : State) (rb : RReg) (n : Nat) : List Pat := elems s.fmt s.dmem (s.getR rb).toNat n

/-- The word of a pointer table for channel `c` (20_memory.md R90). -/
def State.tableWord (s : State) (t : Word) (c : Nat) : Word := BitVec.ofNat 32 (readNat s.dmem (t.toNat + 4 * c) 4)

/-- The channels of the build, ascending. -/
def channels (b : Build) : List Chan := (List.finRange 16).filter fun c => decide (c.val < b.nch)

/-- The pointer table at `t`: each channel with its buffer's address, all read before any buffer (20_memory.md R90). -/
def State.pointers (s : State) (t : Word) : List (Chan × Word) :=
  (channels s.build).map fun c => (c, s.tableWord t c.val)

/-- The check an MFC makes: a per-channel register needs a channel of the build (40_data_movement.md R147). -/
def checkCsr (b : Build) (csr : Csr) (c : Chan) : Option Raised :=
  if csr.perChannel then checkChannel b c
  else if c = 0 then none
  else some ⟨.illegal, 0⟩

/-- The filter register of a CSR number (10_state.md R51); a register that is not per channel ignores the index. -/
def State.readCsr (s : State) (csr : Csr) (c : Chan) : Pat :=
  match csr with
  | .b0 => s.bq.b0
  | .b1 => s.bq.b1
  | .b2 => s.bq.b2
  | .a1 => s.bq.a1
  | .a2 => s.bq.a2
  | .x1 => (s.getDelay c).x1
  | .x2 => (s.getDelay c).x2
  | .y1 => (s.getDelay c).y1
  | .y2 => (s.getDelay c).y2
  | .f1 => s.svf.f1
  | .q1 => s.svf.q1
  | .fs => s.svf.fs
  | .h => (s.getSvf c).h
  | .b => (s.getSvf c).b
  | .l => (s.getSvf c).l

/-- The constant `K[k]` in a format (42_approximation.md R214, R215). -/
def constValue (f : Fmt) : ConstSel → Pat
  | .pi => piC f
  | .twoPi => twoPiC f
  | .halfPi => halfPiC f
  | .negHalfPi => negHalfPiC f
  | .e => eC f
  | .sqrt2 => sqrt2C f

end Sys2Proof.Machine
end

