-- ==== Sys2Proof/Machine/Poly.lean ====
section
/-! DEFINITION. The Polynomial Evaluator (41_polynomial.md). Coefficient lists are in ascending powers. -/

namespace Sys2Proof.Machine

/-- `horner`: from the highest power down, each step a rounded product and a rounded sum (R161). One coefficient is returned
as it is. The empty list, which no legal command or table has, gives `+0` (log 18). -/
def horner (f : Fmt) : List Pat → Pat → Pat
  | [], _ => zero f
  | [c], _ => c
  | c :: d :: cs, x => fadd f (fmul f (horner f (d :: cs) x) x) c

/-- The trailing zero of a level of odd length (R163). -/
def padEven (f : Fmt) (cs : List Pat) : List Pat := if cs.length % 2 = 1 then cs ++ [zero f] else cs

/-- The pairs of one level: `c[2i] + c[2i+1]·x`, two roundings each (R163). -/
def estrinPairs (f : Fmt) (x : Pat) : List Pat → List Pat
  | c0 :: c1 :: cs => fadd f c0 (fmul f c1 x) :: estrinPairs f x cs
  | cs => cs

/-- The levels of Estrin's scheme, each on half the length with `x` squared (R163); the first argument bounds their number. -/
def estrinLevels (f : Fmt) : Nat → List Pat → Pat → Pat
  | _, [], _ => zero f
  | _, [c], _ => c
  | 0, c :: _ :: _, _ => c
  | k + 1, c :: d :: cs, x => estrinLevels f k (estrinPairs f x (padEven f (c :: d :: cs))) (fmul f x x)

/-- `estrin` (R163); a list of length `n` has fewer than `n` levels. -/
def estrin (f : Fmt) (cs : List Pat) (x : Pat) : Pat := estrinLevels f cs.length cs x

/-- `rat`: the quotient of two independent Horner sums (R164). -/
def rat (f : Fmt) (num den : List Pat) (x : Pat) : Pat := fdiv f (horner f num x) (horner f den x)

/-- POLY.HORNER (R160, R161). -/
def execPolyHorner (xd xa : XReg) (rb : RReg) (n : BitVec 8) (s : State) : Host.Outcome State Fault Refusal :=
  s.checked (checkElems s.build (s.getR rb) n.toNat)
    (s.setX xd (horner s.fmt (s.coeffs rb n.toNat) (s.getX xa)))

/-- POLY.FMA2: `c1·x + c0` with one rounding (R162). -/
def execPolyFma2 (xd xa : XReg) (rb : RReg) (s : State) : Host.Outcome State Fault Refusal :=
  let base := (s.getR rb).toNat
  s.checked (checkElems s.build (s.getR rb) 2)
    (s.setX xd (ffma s.fmt (elem s.fmt s.dmem (elemAddr s.fmt base 1)) (s.getX xa) (elem s.fmt s.dmem base)))

/-- POLY.ESTRIN (R160, R163). -/
def execPolyEstrin (xd xa : XReg) (rb : RReg) (n : BitVec 8) (s : State) : Host.Outcome State Fault Refusal :=
  s.checked (checkElems s.build (s.getR rb) n.toNat)
    (s.setX xd (estrin s.fmt (s.coeffs rb n.toNat) (s.getX xa)))

/-- POLY.RAT: numerator at `r[b]`, denominator at `r[c]` (R160, R164). -/
def execPolyRat (xd xa : XReg) (rb rc : RReg) (n : BitVec 8) (s : State) : Host.Outcome State Fault Refusal :=
  s.checked (firstRaised [checkElems s.build (s.getR rb) n.toNat, checkElems s.build (s.getR rc) n.toNat])
    (s.setX xd (rat s.fmt (s.coeffs rb n.toNat) (s.coeffs rc n.toNat) (s.getX xa)))

end Sys2Proof.Machine
end

