-- ==== Sys2Proof/Machine/Approx.lean ====
section
/-! DEFINITION. The Approximation Engine: approximations, utilities and constants (42_approximation.md). -/

namespace Sys2Proof.Machine

/-- `FASTEVAL`: the rational function of a table on the argument as it is (R185). -/
def fastEval (f : Fmt) (t : Table) (x : Pat) : Pat := rat f t.num t.den x

/-- `COSRED`: periodic reduction and the identity `cos t = sin(π/2 - |t|)` (R190). -/
def cosRed (f : Fmt) (x : Pat) : Pat :=
  let t := ffmod f x (twoPiC f)
  let t' :=
    if flt f (piC f) t then fsub f t (twoPiC f)
    else if flt f t (fneg f (piC f)) then fadd f t (twoPiC f)
    else t
  fsub f (halfPiC f) (fabs f t')

/-- The binary32 part of LOG2.BIT: exponent field minus 127, plus the rational correction of the mantissa in [1, 2) (R200). -/
def log2Fields (t : Table) (v : Pat) : Pat :=
  let ex : Nat := v.toNat / 2 ^ 23 % 2 ^ 8
  let fr : Nat := v.toNat % 2 ^ 23
  let m : Pat := BitVec.ofNat 64 (0x7F * 2 ^ 23 + fr)
  fadd .b32 (i2f32 ((ex : Int) - 127)) (rat .b32 t.num t.den m)

/-- LOG2.BIT's function: binary64 operands are narrowed first and the result widened (R200). -/
def log2BitFn (f : Fmt) (t : Table) (x : Pat) : Pat :=
  match f with
  | .b32 => log2Fields t x
  | .b64 => widen64 (log2Fields t (narrow32 x))

/-! ## The approximation commands: `x[d] <- G(x[a])` (R180) -/

/-- The common shape of R180: reads `x[a]`, writes `x[d]`, faults never. -/
def State.applyX (s : State) (xd xa : XReg) (g : Pat → Pat) : Host.Outcome State Fault Refusal :=
  .next (s.setX xd (g (s.getX xa)))

/-- SIN.REF (R186). -/
def execSinRef (xd xa : XReg) (s : State) : Host.Outcome State Fault Refusal :=
  s.applyX xd xa (refApply s.build .sin)

/-- SIN.FAST (R187). -/
def execSinFast (xd xa : XReg) (s : State) : Host.Outcome State Fault Refusal :=
  s.applyX xd xa (fastEval s.fmt s.build.tables.sinFast)

/-- SIN.FASTER (R188). -/
def execSinFaster (xd xa : XReg) (s : State) : Host.Outcome State Fault Refusal :=
  s.applyX xd xa (fastEval s.fmt s.build.tables.sinFaster)

/-- COS.REF (R189). -/
def execCosRef (xd xa : XReg) (s : State) : Host.Outcome State Fault Refusal :=
  s.applyX xd xa (refApply s.build .cos)

/-- COS.FAST (R191). -/
def execCosFast (xd xa : XReg) (s : State) : Host.Outcome State Fault Refusal :=
  s.applyX xd xa (fun v => fastEval s.fmt s.build.tables.sinFast (cosRed s.fmt v))

/-- COS.FASTER (R192). -/
def execCosFaster (xd xa : XReg) (s : State) : Host.Outcome State Fault Refusal :=
  s.applyX xd xa (fun v => fastEval s.fmt s.build.tables.sinFaster (cosRed s.fmt v))

/-- TAN.REF (R193). -/
def execTanRef (xd xa : XReg) (s : State) : Host.Outcome State Fault Refusal :=
  s.applyX xd xa (refApply s.build .tan)

/-- TAN.FAST (R194). -/
def execTanFast (xd xa : XReg) (s : State) : Host.Outcome State Fault Refusal :=
  s.applyX xd xa (fastEval s.fmt s.build.tables.tanFast)

/-- TAN.FASTER (R195). -/
def execTanFaster (xd xa : XReg) (s : State) : Host.Outcome State Fault Refusal :=
  s.applyX xd xa (fastEval s.fmt s.build.tables.tanFaster)

/-- TANH.REF (R196). -/
def execTanhRef (xd xa : XReg) (s : State) : Host.Outcome State Fault Refusal :=
  s.applyX xd xa (refApply s.build .tanh)

/-- TANH.FAST (R197). -/
def execTanhFast (xd xa : XReg) (s : State) : Host.Outcome State Fault Refusal :=
  s.applyX xd xa (fastEval s.fmt s.build.tables.tanhFast)

/-- LOG2.REF (R198). -/
def execLog2Ref (xd xa : XReg) (s : State) : Host.Outcome State Fault Refusal :=
  s.applyX xd xa (refApply s.build .log2)

/-- LOG2.FAST (R199). -/
def execLog2Fast (xd xa : XReg) (s : State) : Host.Outcome State Fault Refusal :=
  s.applyX xd xa (fastEval s.fmt s.build.tables.log2Fast)

/-- LOG2.BIT (R200). -/
def execLog2Bit (xd xa : XReg) (s : State) : Host.Outcome State Fault Refusal :=
  s.applyX xd xa (log2BitFn s.fmt s.build.tables.log2b)

/-- SQRT.REF, the IEEE square root (R202). -/
def execSqrtRef (xd xa : XReg) (s : State) : Host.Outcome State Fault Refusal :=
  s.applyX xd xa (fsqrt s.fmt)

/-- SQRT.FAST (R203). -/
def execSqrtFast (xd xa : XReg) (s : State) : Host.Outcome State Fault Refusal :=
  s.applyX xd xa (fastEval s.fmt s.build.tables.sqrtFast)

/-! ## Utilities (R210 to R213) and constants (R214) -/

/-- MIN (R210). -/
def execFmin (xd xa xb : XReg) (s : State) : Host.Outcome State Fault Refusal :=
  .next (s.setX xd (minSel s.fmt (s.getX xa) (s.getX xb)))

/-- MAX (R211). -/
def execFmax (xd xa xb : XReg) (s : State) : Host.Outcome State Fault Refusal :=
  .next (s.setX xd (maxSel s.fmt (s.getX xa) (s.getX xb)))

/-- CLIP of `x[a]` to the bounds `x[b]`, `x[c]` (R212). -/
def execClip (xd xa xb xc : XReg) (s : State) : Host.Outcome State Fault Refusal :=
  .next (s.setX xd (clipSel s.fmt (s.getX xa) (s.getX xb) (s.getX xc)))

/-- WITHIN of `x[a]` in `[x[b], x[c]]` (R213). -/
def execWithin (rd : RReg) (xa xb xc : XReg) (s : State) : Host.Outcome State Fault Refusal :=
  .next (s.setR rd (boolWord (withinTest s.fmt (s.getX xa) (s.getX xb) (s.getX xc))))

/-- CONST (R214). -/
def execConst (xd : XReg) (k : ConstSel) (s : State) : Host.Outcome State Fault Refusal :=
  .next (s.setX xd (constValue s.fmt k))

end Sys2Proof.Machine
end

