-- ==== Sys2Proof/Machine/DataMove.lean ====
section
/-! DEFINITION. Data movement, integer and register-access commands (40_data_movement.md). -/

namespace Sys2Proof.Machine

/-- NOP changes no state at all (R140). -/
def execNop (s : State) : Host.Outcome State Fault Refusal := .next s

/-- SETR: `imm16` zero-extended (R141). -/
def execSetr (rd : RReg) (imm : BitVec 16) (s : State) : Host.Outcome State Fault Refusal :=
  .next (s.setR rd (imm.setWidth 32))

/-- SETRH: `imm16` in bits 31:16, the low half kept (R142). -/
def execSetrh (rd : RReg) (imm : BitVec 16) (s : State) : Host.Outcome State Fault Refusal :=
  .next (s.setR rd (BitVec.ofNat 32 (imm.toNat * 2 ^ 16 + (s.getR rd).toNat % 2 ^ 16)))

/-- ADDRI: wrapping addition of the sign-extended immediate (R143, R148). -/
def execAddri (rd ra : RReg) (imm : BitVec 16) (s : State) : Host.Outcome State Fault Refusal :=
  .next (s.setR rd (s.addOffset ra imm))

/-- LD: one element, bit for bit (R144). -/
def execLd (xd : XReg) (ra : RReg) (imm : BitVec 16) (s : State) : Host.Outcome State Fault Refusal :=
  let ea := s.addOffset ra imm
  s.checked (checkElems s.build ea 1) (s.setX xd (elem s.fmt s.dmem ea.toNat))

/-- ST: one element, exactly `EB` bytes (R145). -/
def execSt (xs : XReg) (ra : RReg) (imm : BitVec 16) (s : State) : Host.Outcome State Fault Refusal :=
  let ea := s.addOffset ra imm
  s.checked (checkElems s.build ea 1) (s.setDmem (setElem s.fmt s.dmem ea.toNat (s.getX xs)))

/-- MOV: a bit-for-bit copy (R146). -/
def execMov (xd xs : XReg) (s : State) : Host.Outcome State Fault Refusal :=
  .next (s.setX xd (s.getX xs))

/-- MFC: a filter register, bit for bit (R147). -/
def execMfc (xd : XReg) (csr : Csr) (ch : Chan) (s : State) : Host.Outcome State Fault Refusal :=
  s.checked (checkCsr s.build csr ch) (s.setX xd (s.readCsr csr ch))

end Sys2Proof.Machine
end

