-- ==== Sys2Proof/Machine/Biquad.lean ====
section
/-! DEFINITION. The Biquad Filter (43_biquad.md): coefficient derivation, the recurrence, and its per-sample, in-place, block
and multi-channel forms. -/

namespace Sys2Proof.Machine

/-! ## Coefficient derivation (R232 to R234) -/

/-- The five responses (R232). -/
inductive BqResp where
  | lp
  | hp
  | bp
  | br
  | ap
  deriving DecidableEq, Repr

/-- `den = k²q + k + q` (R232). -/
def bqDen (f : Fmt) (k q : Pat) : Pat := fadd f (fadd f (fmul f (fmul f k k) q) k) q

/-- `na1 = 2q(k² - 1)/den` (R232). -/
def bqA1 (f : Fmt) (k q : Pat) : Pat :=
  fdiv f (fmul f (fmul f (two f) q) (fsub f (fmul f k k) (one f))) (bqDen f k q)

/-- `na2 = (k²q - k + q)/den` (R232). -/
def bqA2 (f : Fmt) (k q : Pat) : Pat :=
  fdiv f (fadd f (fsub f (fmul f (fmul f k k) q) k) q) (bqDen f k q)

/-- `BQ_DIRECT`: all five coefficients from `k` and `q` alone (R232). -/
def bqDirect (f : Fmt) (resp : BqResp) (k q : Pat) : BqCoef :=
  let kk := fmul f k k
  let den := bqDen f k q
  let na1 := bqA1 f k q
  let na2 := bqA2 f k q
  match resp with
  | .lp =>
    let nb0 := fdiv f (fmul f kk q) den
    { b0 := nb0, b1 := fmul f (two f) nb0, b2 := nb0, a1 := na1, a2 := na2 }
  | .hp =>
    let nb0 := fdiv f q den
    { b0 := nb0, b1 := fneg f (fmul f (two f) nb0), b2 := nb0, a1 := na1, a2 := na2 }
  | .bp =>
    let nb0 := fdiv f k den
    { b0 := nb0, b1 := zero f, b2 := fneg f nb0, a1 := na1, a2 := na2 }
  | .br =>
    let nb0 := fdiv f (fmul f q (fadd f (one f) kk)) den
    { b0 := nb0, b1 := na1, b2 := nb0, a1 := na1, a2 := na2 }
  | .ap => { b0 := na2, b1 := na1, b2 := one f, a1 := na1, a2 := na2 }

/-- `BQ_N`: `k = REF_TAN(PI·f)`, the product rounded first (R233). -/
def bqNorm (b : Build) (resp : BqResp) (fr q : Pat) : BqCoef :=
  bqDirect b.fmt resp (refApply b .tan (fmul b.fmt (piC b.fmt) fr)) q

/-- `BQ_CS`: `f = fc/fs`, then as `BQ_N` (R234). -/
def bqCutoff (b : Build) (resp : BqResp) (fc fs q : Pat) : BqCoef := bqNorm b resp (fdiv b.fmt fc fs) q

/-- BQ.LP.N (R235). -/
def execBqLpN (xa xb : XReg) (s : State) : Host.Outcome State Fault Refusal :=
  .next (s.setBq (bqNorm s.build .lp (s.getX xa) (s.getX xb)))

/-- BQ.LP.CS (R236). -/
def execBqLpCs (xa xb xc : XReg) (s : State) : Host.Outcome State Fault Refusal :=
  .next (s.setBq (bqCutoff s.build .lp (s.getX xa) (s.getX xb) (s.getX xc)))

/-- BQ.LP.D (R237). -/
def execBqLpD (xa xb : XReg) (s : State) : Host.Outcome State Fault Refusal :=
  .next (s.setBq (bqDirect s.fmt .lp (s.getX xa) (s.getX xb)))

/-- BQ.HP.N (R238). -/
def execBqHpN (xa xb : XReg) (s : State) : Host.Outcome State Fault Refusal :=
  .next (s.setBq (bqNorm s.build .hp (s.getX xa) (s.getX xb)))

/-- BQ.HP.CS (R239). -/
def execBqHpCs (xa xb xc : XReg) (s : State) : Host.Outcome State Fault Refusal :=
  .next (s.setBq (bqCutoff s.build .hp (s.getX xa) (s.getX xb) (s.getX xc)))

/-- BQ.HP.D (R240). -/
def execBqHpD (xa xb : XReg) (s : State) : Host.Outcome State Fault Refusal :=
  .next (s.setBq (bqDirect s.fmt .hp (s.getX xa) (s.getX xb)))

/-- BQ.BP.N (R241). -/
def execBqBpN (xa xb : XReg) (s : State) : Host.Outcome State Fault Refusal :=
  .next (s.setBq (bqNorm s.build .bp (s.getX xa) (s.getX xb)))

/-- BQ.BP.CS (R242). -/
def execBqBpCs (xa xb xc : XReg) (s : State) : Host.Outcome State Fault Refusal :=
  .next (s.setBq (bqCutoff s.build .bp (s.getX xa) (s.getX xb) (s.getX xc)))

/-- BQ.BP.D (R243). -/
def execBqBpD (xa xb : XReg) (s : State) : Host.Outcome State Fault Refusal :=
  .next (s.setBq (bqDirect s.fmt .bp (s.getX xa) (s.getX xb)))

/-- BQ.BR.N (R244). -/
def execBqBrN (xa xb : XReg) (s : State) : Host.Outcome State Fault Refusal :=
  .next (s.setBq (bqNorm s.build .br (s.getX xa) (s.getX xb)))

/-- BQ.BR.CS (R245). -/
def execBqBrCs (xa xb xc : XReg) (s : State) : Host.Outcome State Fault Refusal :=
  .next (s.setBq (bqCutoff s.build .br (s.getX xa) (s.getX xb) (s.getX xc)))

/-- BQ.BR.D (R246). -/
def execBqBrD (xa xb : XReg) (s : State) : Host.Outcome State Fault Refusal :=
  .next (s.setBq (bqDirect s.fmt .br (s.getX xa) (s.getX xb)))

/-- BQ.AP.N (R247). -/
def execBqApN (xa xb : XReg) (s : State) : Host.Outcome State Fault Refusal :=
  .next (s.setBq (bqNorm s.build .ap (s.getX xa) (s.getX xb)))

/-- BQ.AP.CS (R248). -/
def execBqApCs (xa xb xc : XReg) (s : State) : Host.Outcome State Fault Refusal :=
  .next (s.setBq (bqCutoff s.build .ap (s.getX xa) (s.getX xb) (s.getX xc)))

/-- BQ.AP.D (R249). -/
def execBqApD (xa xb : XReg) (s : State) : Host.Outcome State Fault Refusal :=
  .next (s.setBq (bqDirect s.fmt .ap (s.getX xa) (s.getX xb)))

/-! ## The recurrence (R231) -/

/-- `BQ_F`: `((((b0·x0 + b1·x1) + b2·x2) - a1·y1) - a2·y2)`, every product and sum rounded (R231). -/
def bqF (f : Fmt) (k : BqCoef) (x0 x1 x2 y1 y2 : Pat) : Pat :=
  fsub f
    (fsub f (fadd f (fadd f (fmul f k.b0 x0) (fmul f k.b1 x1)) (fmul f k.b2 x2)) (fmul f k.a1 y1))
    (fmul f k.a2 y2)

/-- The output of one sample on a delay state (R231). -/
def bqOut (f : Fmt) (k : BqCoef) (d : BqDelay) (x0 : Pat) : Pat := bqF f k x0 d.x1 d.x2 d.y1 d.y2

/-- The history shift: bit patterns copied (R231). -/
def bqShift (d : BqDelay) (x0 y0 : Pat) : BqDelay := { x1 := x0, x2 := d.x1, y1 := y0, y2 := d.y1 }

/-! ## Buffer forms on a delay state and a memory -/

/-- `BQ_BUF` (R251): `n` further samples from address `a`, ascending, in place. -/
def bqBufLoop (f : Fmt) (k : BqCoef) : Nat → Nat → BqDelay → Memory → BqDelay × Memory
  | 0, _, d, m => (d, m)
  | n + 1, a, d, m =>
    let x0 := elem f m a
    let y0 := bqOut f k d x0
    bqBufLoop f k n (a + eb f) (bqShift d x0 y0) (setElem f m a y0)

/-- The general loop of `BQ_OPT` (R252): `j` further samples from index `n`; `p1`, `p2` are the two previous inputs; prior
outputs are read back from the buffer. -/
def bqOptLoop (f : Fmt) (k : BqCoef) (base : Nat) : Nat → Nat → Pat → Pat → Memory → (Pat × Pat) × Memory
  | 0, _, p1, p2, m => ((p1, p2), m)
  | j + 1, n, p1, p2, m =>
    let cur := elem f m (elemAddr f base n)
    let y := bqF f k cur p1 p2 (elem f m (elemAddr f base (n - 1))) (elem f m (elemAddr f base (n - 2)))
    bqOptLoop f k base j (n + 1) cur p1 (setElem f m (elemAddr f base n) y)

/-- `BQ_OPT` on `count ≥ 2` samples (R252). -/
def bqOptRun (f : Fmt) (k : BqCoef) (base count : Nat) (d : BqDelay) (m : Memory) : BqDelay × Memory :=
  let i0 := elem f m (elemAddr f base 0)
  let i1 := elem f m (elemAddr f base 1)
  let m1 := setElem f m (elemAddr f base 0) (bqF f k i0 d.x1 d.x2 d.y1 d.y2)
  let m2 := setElem f m1 (elemAddr f base 1) (bqF f k i1 i0 d.x1 (elem f m1 (elemAddr f base 0)) d.y1)
  let r := bqOptLoop f k base (count - 2) 2 i1 i0 m2
  ({ x1 := r.1.1, x2 := r.1.2, y1 := elem f r.2 (elemAddr f base (count - 1)),
     y2 := elem f r.2 (elemAddr f base (count - 2)) }, r.2)

/-- The general loop of `BQ_OPT2` (R253): `j` further samples from index `n`; inputs from `inp`, outputs to `out`. -/
def bqOpt2Loop (f : Fmt) (k : BqCoef) (inp out : Nat) : Nat → Nat → Memory → Memory
  | 0, _, m => m
  | j + 1, n, m =>
    let y := bqF f k (elem f m (elemAddr f inp n)) (elem f m (elemAddr f inp (n - 1))) (elem f m (elemAddr f inp (n - 2)))
      (elem f m (elemAddr f out (n - 1))) (elem f m (elemAddr f out (n - 2)))
    bqOpt2Loop f k inp out j (n + 1) (setElem f m (elemAddr f out n) y)

/-- `BQ_OPT2` on `count ≥ 2` samples (R253). -/
def bqOpt2Run (f : Fmt) (k : BqCoef) (inp out count : Nat) (d : BqDelay) (m : Memory) : BqDelay × Memory :=
  let m1 := setElem f m (elemAddr f out 0) (bqF f k (elem f m (elemAddr f inp 0)) d.x1 d.x2 d.y1 d.y2)
  let m2 := setElem f m1 (elemAddr f out 1)
    (bqF f k (elem f m1 (elemAddr f inp 1)) (elem f m1 (elemAddr f inp 0)) d.x1 (elem f m1 (elemAddr f out 0)) d.y1)
  let m3 := bqOpt2Loop f k inp out (count - 2) 2 m2
  ({ x1 := elem f m3 (elemAddr f inp (count - 1)), x2 := elem f m3 (elemAddr f inp (count - 2)),
     y1 := elem f m3 (elemAddr f out (count - 1)), y2 := elem f m3 (elemAddr f out (count - 2)) }, m3)

/-- A channel's delay state and DMEM replaced together. -/
def State.putDelay (s : State) (c : Chan) (r : BqDelay × Memory) : State := (s.setDelay c r.1).setDmem r.2

/-- `BQ_BUF(c, B, count)` on the machine (R251). -/
def State.bqBuf (s : State) (c : Chan) (base count : Word) : State :=
  s.putDelay c (bqBufLoop s.fmt s.bq count.toNat base.toNat (s.getDelay c) s.dmem)

/-- `BQ_OPT(c, B, count)` on the machine (R252). -/
def State.bqOpt (s : State) (c : Chan) (base count : Word) : State :=
  s.putDelay c (bqOptRun s.fmt s.bq base.toNat count.toNat (s.getDelay c) s.dmem)

/-- `BQ_OPT2(c, I, O, count)` on the machine (R253). -/
def State.bqOpt2 (s : State) (c : Chan) (inp out count : Word) : State :=
  s.putDelay c (bqOpt2Run s.fmt s.bq inp.toNat out.toNat count.toNat (s.getDelay c) s.dmem)

/-! ## The processing commands (R250 to R256) -/

/-- BQ.PROC: one sample (R250). -/
def execBqProc (xd xa : XReg) (ch : Chan) (s : State) : Host.Outcome State Fault Refusal :=
  let x0 := s.getX xa
  let d := s.getDelay ch
  let y0 := bqOut s.fmt s.bq d x0
  s.checked (checkChannel s.build ch) ((s.setDelay ch (bqShift d x0 y0)).setX xd y0)

/-- BQ.BUF: in place (R251). -/
def execBqBuf (ra rb : RReg) (ch : Chan) (s : State) : Host.Outcome State Fault Refusal :=
  let base := s.getR ra
  let count := s.getR rb
  s.checked (firstRaised [checkChannel s.build ch, checkElems s.build base count.toNat]) (s.bqBuf ch base count)

/-- BQ.OPT: block-optimized, in place (R252). -/
def execBqOpt (ra rb : RReg) (ch : Chan) (s : State) : Host.Outcome State Fault Refusal :=
  let base := s.getR ra
  let count := s.getR rb
  s.checked (firstRaised [checkChannel s.build ch, checkCount count, checkElems s.build base count.toNat])
    (s.bqOpt ch base count)

/-- BQ.OPT2: block-optimized, input at `r[a]`, output at `r[d]` (R253). -/
def execBqOpt2 (rd ra rb : RReg) (ch : Chan) (s : State) : Host.Outcome State Fault Refusal :=
  let inp := s.getR ra
  let out := s.getR rd
  let count := s.getR rb
  s.checked
    (firstRaised [checkChannel s.build ch, checkCount count, checkElems s.build inp count.toNat,
      checkElems s.build out count.toNat, checkOverlap inp out (count.toNat * eb s.fmt)])
    (s.bqOpt2 ch inp out count)

/-- The buffer checks of a multi-channel form, in ascending channel order (R254). -/
def checkBuffers (b : Build) (ps : List (Chan × Word)) (count : Word) : Option Raised :=
  firstRaised (ps.map fun p => checkElems b p.2 count.toNat)

/-- BQ.MBUF: every channel of the pointer table at `r[a]`, channel by channel (R254). -/
def execBqMbuf (ra rb : RReg) (s : State) : Host.Outcome State Fault Refusal :=
  let t := s.getR ra
  let count := s.getR rb
  s.checked (firstRaised [checkTable s.build t, checkBuffers s.build (s.pointers t) count])
    ((s.pointers t).foldl (fun u p => u.bqBuf p.1 p.2 count) s)

/-- BQ.MOPT: the multi-channel form of BQ.OPT (R255). -/
def execBqMopt (ra rb : RReg) (s : State) : Host.Outcome State Fault Refusal :=
  let t := s.getR ra
  let count := s.getR rb
  s.checked (firstRaised [checkCount count, checkTable s.build t, checkBuffers s.build (s.pointers t) count])
    ((s.pointers t).foldl (fun u p => u.bqOpt p.1 p.2 count) s)

/-- Input and output address of every channel (R256). -/
def State.pointerPairs (s : State) (ti tout : Word) : List (Chan × Word × Word) :=
  (channels s.build).map fun c => (c, s.tableWord ti c.val, s.tableWord tout c.val)

/-- BQ.MOPT2: the multi-channel form of BQ.OPT2, tables at `r[a]` (input) and `r[d]` (output) (R256). -/
def execBqMopt2 (rd ra rb : RReg) (s : State) : Host.Outcome State Fault Refusal :=
  let ti := s.getR ra
  let tout := s.getR rd
  let count := s.getR rb
  let ps := s.pointerPairs ti tout
  s.checked
    (firstRaised [checkCount count, checkTable s.build ti, checkTable s.build tout,
      firstRaised (ps.map fun p =>
        firstRaised [checkElems s.build p.2.1 count.toNat, checkElems s.build p.2.2 count.toNat]),
      firstRaised (ps.map fun p => checkOverlap p.2.1 p.2.2 (count.toNat * eb s.fmt))])
    (ps.foldl (fun u p => u.bqOpt2 p.1 p.2.1 p.2.2 count) s)

end Sys2Proof.Machine
end

