-- ==== Sys2Proof/Machine/Svf.lean ====
section
/-! DEFINITION. The State-Variable Filter (44_svf.md). -/

namespace Sys2Proof.Machine

/-- `sel`: which of the three simultaneous outputs (30_encoding.md R114). -/
inductive SvfOut where
  | hp
  | bp
  | lp
  deriving DecidableEq, Repr

/-- `SEL(sel, (nh, nb, nl))` (44_svf.md section 3). -/
def svfPick (o : SvfOut) (v : SvfChan) : Pat :=
  match o with
  | .hp => v.h
  | .bp => v.b
  | .lp => v.l

/-- `nf1 = 2·REF_SIN(PI·(fc/fs))` (R281). -/
def svfF1 (b : Build) (fs fc : Pat) : Pat :=
  fmul b.fmt (two b.fmt) (refApply b .sin (fmul b.fmt (piC b.fmt) (fdiv b.fmt fc fs)))

/-- `nq1 = 1/Q` (R281). -/
def svfQ1 (b : Build) (q : Pat) : Pat := fdiv b.fmt (one b.fmt) q

/-- The state value the highpass line subtracts (R283). -/
def svfTap (fb : SvfFb) (v : SvfChan) : Pat :=
  match fb with
  | .hPrev => v.h
  | .lPrev => v.l

/-- `SVF_STEP`: the new `h`, `b`, `l`, which are both the state and the outputs (R283). -/
def svfStep (b : Build) (k : SvfCoef) (v : SvfChan) (x : Pat) : SvfChan :=
  let nh := fsub b.fmt (fsub b.fmt x (svfTap b.svfFb v)) (fmul b.fmt k.q1 v.b)
  let nb := fadd b.fmt (fmul b.fmt k.f1 nh) v.b
  let nl := fadd b.fmt (fmul b.fmt k.f1 nb) v.l
  { h := nh, b := nb, l := nl }

/-- `SVF_BUF` (R291): `n` further samples from address `a`, ascending, in place. -/
def svfBufLoop (b : Build) (k : SvfCoef) (o : SvfOut) : Nat → Nat → SvfChan → Memory → SvfChan × Memory
  | 0, _, v, m => (v, m)
  | n + 1, a, v, m =>
    let v' := svfStep b k v (elem b.fmt m a)
    svfBufLoop b k o n (a + eb b.fmt) v' (setElem b.fmt m a (svfPick o v'))

/-- `SVF_BUF(sel, c, B, count)` on the machine (R291). -/
def State.svfBuf (s : State) (o : SvfOut) (c : Chan) (base count : Word) : State :=
  let r := svfBufLoop s.build s.svf o count.toNat base.toNat (s.getSvf c) s.dmem
  (s.setSvf c r.1).setDmem r.2

/-- The channel state that SVF.RESET leaves (R284). -/
def svfZero (f : Fmt) : SvfChan := { h := zero f, b := zero f, l := zero f }

/-- SVF.RESET: coefficients and the state of every channel of the build to `+0`, the sample rate recorded unchecked (R284). -/
def execSvfReset (xa : XReg) (s : State) : Host.Outcome State Fault Refusal :=
  let cleared := (channels s.build).foldl (fun u c => u.setSvf c (svfZero s.fmt)) s
  .next { cleared with svf := { f1 := zero s.fmt, q1 := zero s.fmt, fs := s.getX xa } }

/-- SVF.SETC: 0 and nothing else when rejected, otherwise both coefficients and 1 (R285). -/
def execSvfSetc (rd : RReg) (xa xb : XReg) (s : State) : Host.Outcome State Fault Refusal :=
  let nf1 := svfF1 s.build s.svf.fs (s.getX xa)
  let nq1 := svfQ1 s.build (s.getX xb)
  if svfReject s.fmt nf1 nq1 then .next (s.setR rd (boolWord false))
  else .next ((s.setSvfCoef nf1 nq1).setR rd (boolWord true))

/-- SVF.SETU: unconditionally (R286). -/
def execSvfSetu (xa xb : XReg) (s : State) : Host.Outcome State Fault Refusal :=
  .next (s.setSvfCoef (svfF1 s.build s.svf.fs (s.getX xa)) (svfQ1 s.build (s.getX xb)))

/-! ## Processing: shared forms (44_svf.md section 3) -/

/-- One sample; the selected output to `x[d]` (R287 to R289). -/
def State.svfProc (s : State) (o : SvfOut) (xd xa : XReg) (ch : Chan) : Host.Outcome State Fault Refusal :=
  let v := svfStep s.build s.svf (s.getSvf ch) (s.getX xa)
  s.checked (checkChannel s.build ch) ((s.setSvf ch v).setX xd (svfPick o v))

/-- A buffer in place (R291 to R293). -/
def State.svfBufCmd (s : State) (o : SvfOut) (ra rb : RReg) (ch : Chan) : Host.Outcome State Fault Refusal :=
  let base := s.getR ra
  let count := s.getR rb
  s.checked (firstRaised [checkChannel s.build ch, checkElems s.build base count.toNat]) (s.svfBuf o ch base count)

/-- Every channel of the pointer table, channel by channel (R294 to R296). -/
def State.svfMbufCmd (s : State) (o : SvfOut) (ra rb : RReg) : Host.Outcome State Fault Refusal :=
  let t := s.getR ra
  let count := s.getR rb
  s.checked (firstRaised [checkTable s.build t, checkBuffers s.build (s.pointers t) count])
    ((s.pointers t).foldl (fun u p => u.svfBuf o p.1 p.2 count) s)

/-! ## The processing commands -/

/-- SVF.PROC.HP (R287). -/
def execSvfProcHp (xd xa : XReg) (ch : Chan) (s : State) : Host.Outcome State Fault Refusal := s.svfProc .hp xd xa ch

/-- SVF.PROC.BP (R288). -/
def execSvfProcBp (xd xa : XReg) (ch : Chan) (s : State) : Host.Outcome State Fault Refusal := s.svfProc .bp xd xa ch

/-- SVF.PROC.LP (R289). -/
def execSvfProcLp (xd xa : XReg) (ch : Chan) (s : State) : Host.Outcome State Fault Refusal := s.svfProc .lp xd xa ch

/-- SVF.FRAME: one sample, the three outputs as three consecutive elements at `r[d]` (R290). -/
def execSvfFrame (rd : RReg) (xa : XReg) (ch : Chan) (s : State) : Host.Outcome State Fault Refusal :=
  let base := s.getR rd
  let v := svfStep s.build s.svf (s.getSvf ch) (s.getX xa)
  let m1 := setElem s.fmt s.dmem (elemAddr s.fmt base.toNat 0) v.h
  let m2 := setElem s.fmt m1 (elemAddr s.fmt base.toNat 1) v.b
  let m3 := setElem s.fmt m2 (elemAddr s.fmt base.toNat 2) v.l
  s.checked (firstRaised [checkChannel s.build ch, checkElems s.build base 3]) ((s.setSvf ch v).setDmem m3)

/-- SVF.BUF.HP (R291). -/
def execSvfBufHp (ra rb : RReg) (ch : Chan) (s : State) : Host.Outcome State Fault Refusal := s.svfBufCmd .hp ra rb ch

/-- SVF.BUF.BP (R292). -/
def execSvfBufBp (ra rb : RReg) (ch : Chan) (s : State) : Host.Outcome State Fault Refusal := s.svfBufCmd .bp ra rb ch

/-- SVF.BUF.LP (R293). -/
def execSvfBufLp (ra rb : RReg) (ch : Chan) (s : State) : Host.Outcome State Fault Refusal := s.svfBufCmd .lp ra rb ch

/-- SVF.MBUF.HP (R294). -/
def execSvfMbufHp (ra rb : RReg) (s : State) : Host.Outcome State Fault Refusal := s.svfMbufCmd .hp ra rb

/-- SVF.MBUF.BP (R295). -/
def execSvfMbufBp (ra rb : RReg) (s : State) : Host.Outcome State Fault Refusal := s.svfMbufCmd .bp ra rb

/-- SVF.MBUF.LP (R296). -/
def execSvfMbufLp (ra rb : RReg) (s : State) : Host.Outcome State Fault Refusal := s.svfMbufCmd .lp ra rb

end Sys2Proof.Machine
end

