-- ==== Sys2Proof/Machine/Dispatch.lean ====
section
/-! DEFINITION. `exec`: one arm per command, each one direct call of its meaning. -/

namespace Sys2Proof.Machine

def exec (i : Instr) (s : State) : Host.Outcome State Fault Refusal :=
  match i with
  | .nop => Sys2Proof.Machine.execNop s
  | .setr rd imm => Sys2Proof.Machine.execSetr rd imm s
  | .setrh rd imm => Sys2Proof.Machine.execSetrh rd imm s
  | .addri rd ra imm => Sys2Proof.Machine.execAddri rd ra imm s
  | .ld xd ra imm => Sys2Proof.Machine.execLd xd ra imm s
  | .st xs ra imm => Sys2Proof.Machine.execSt xs ra imm s
  | .mov xd xs => Sys2Proof.Machine.execMov xd xs s
  | .mfc xd csr ch => Sys2Proof.Machine.execMfc xd csr ch s
  | .polyHorner xd xa rb n => Sys2Proof.Machine.execPolyHorner xd xa rb n s
  | .polyFma2 xd xa rb => Sys2Proof.Machine.execPolyFma2 xd xa rb s
  | .polyEstrin xd xa rb n => Sys2Proof.Machine.execPolyEstrin xd xa rb n s
  | .polyRat xd xa rb rc n => Sys2Proof.Machine.execPolyRat xd xa rb rc n s
  | .sinRef xd xa => Sys2Proof.Machine.execSinRef xd xa s
  | .sinFast xd xa => Sys2Proof.Machine.execSinFast xd xa s
  | .sinFaster xd xa => Sys2Proof.Machine.execSinFaster xd xa s
  | .cosRef xd xa => Sys2Proof.Machine.execCosRef xd xa s
  | .cosFast xd xa => Sys2Proof.Machine.execCosFast xd xa s
  | .cosFaster xd xa => Sys2Proof.Machine.execCosFaster xd xa s
  | .tanRef xd xa => Sys2Proof.Machine.execTanRef xd xa s
  | .tanFast xd xa => Sys2Proof.Machine.execTanFast xd xa s
  | .tanFaster xd xa => Sys2Proof.Machine.execTanFaster xd xa s
  | .tanhRef xd xa => Sys2Proof.Machine.execTanhRef xd xa s
  | .tanhFast xd xa => Sys2Proof.Machine.execTanhFast xd xa s
  | .log2Ref xd xa => Sys2Proof.Machine.execLog2Ref xd xa s
  | .log2Fast xd xa => Sys2Proof.Machine.execLog2Fast xd xa s
  | .log2Bit xd xa => Sys2Proof.Machine.execLog2Bit xd xa s
  | .sqrtRef xd xa => Sys2Proof.Machine.execSqrtRef xd xa s
  | .sqrtFast xd xa => Sys2Proof.Machine.execSqrtFast xd xa s
  | .fmin xd xa xb => Sys2Proof.Machine.execFmin xd xa xb s
  | .fmax xd xa xb => Sys2Proof.Machine.execFmax xd xa xb s
  | .clip xd xa xb xc => Sys2Proof.Machine.execClip xd xa xb xc s
  | .within rd xa xb xc => Sys2Proof.Machine.execWithin rd xa xb xc s
  | .const xd k => Sys2Proof.Machine.execConst xd k s
  | .bqLpN xa xb => Sys2Proof.Machine.execBqLpN xa xb s
  | .bqLpCs xa xb xc => Sys2Proof.Machine.execBqLpCs xa xb xc s
  | .bqLpD xa xb => Sys2Proof.Machine.execBqLpD xa xb s
  | .bqHpN xa xb => Sys2Proof.Machine.execBqHpN xa xb s
  | .bqHpCs xa xb xc => Sys2Proof.Machine.execBqHpCs xa xb xc s
  | .bqHpD xa xb => Sys2Proof.Machine.execBqHpD xa xb s
  | .bqBpN xa xb => Sys2Proof.Machine.execBqBpN xa xb s
  | .bqBpCs xa xb xc => Sys2Proof.Machine.execBqBpCs xa xb xc s
  | .bqBpD xa xb => Sys2Proof.Machine.execBqBpD xa xb s
  | .bqBrN xa xb => Sys2Proof.Machine.execBqBrN xa xb s
  | .bqBrCs xa xb xc => Sys2Proof.Machine.execBqBrCs xa xb xc s
  | .bqBrD xa xb => Sys2Proof.Machine.execBqBrD xa xb s
  | .bqApN xa xb => Sys2Proof.Machine.execBqApN xa xb s
  | .bqApCs xa xb xc => Sys2Proof.Machine.execBqApCs xa xb xc s
  | .bqApD xa xb => Sys2Proof.Machine.execBqApD xa xb s
  | .bqProc xd xa ch => Sys2Proof.Machine.execBqProc xd xa ch s
  | .bqBuf ra rb ch => Sys2Proof.Machine.execBqBuf ra rb ch s
  | .bqOpt ra rb ch => Sys2Proof.Machine.execBqOpt ra rb ch s
  | .bqOpt2 rd ra rb ch => Sys2Proof.Machine.execBqOpt2 rd ra rb ch s
  | .bqMbuf ra rb => Sys2Proof.Machine.execBqMbuf ra rb s
  | .bqMopt ra rb => Sys2Proof.Machine.execBqMopt ra rb s
  | .bqMopt2 rd ra rb => Sys2Proof.Machine.execBqMopt2 rd ra rb s
  | .svfReset xa => Sys2Proof.Machine.execSvfReset xa s
  | .svfSetc rd xa xb => Sys2Proof.Machine.execSvfSetc rd xa xb s
  | .svfSetu xa xb => Sys2Proof.Machine.execSvfSetu xa xb s
  | .svfProcHp xd xa ch => Sys2Proof.Machine.execSvfProcHp xd xa ch s
  | .svfProcBp xd xa ch => Sys2Proof.Machine.execSvfProcBp xd xa ch s
  | .svfProcLp xd xa ch => Sys2Proof.Machine.execSvfProcLp xd xa ch s
  | .svfFrame rd xa ch => Sys2Proof.Machine.execSvfFrame rd xa ch s
  | .svfBufHp ra rb ch => Sys2Proof.Machine.execSvfBufHp ra rb ch s
  | .svfBufBp ra rb ch => Sys2Proof.Machine.execSvfBufBp ra rb ch s
  | .svfBufLp ra rb ch => Sys2Proof.Machine.execSvfBufLp ra rb ch s
  | .svfMbufHp ra rb => Sys2Proof.Machine.execSvfMbufHp ra rb s
  | .svfMbufBp ra rb => Sys2Proof.Machine.execSvfMbufBp ra rb s
  | .svfMbufLp ra rb => Sys2Proof.Machine.execSvfMbufLp ra rb s

end Sys2Proof.Machine
end

