-- ==== Sys2Proof/Machine/Run.lean ====
section
/-! DEFINITION. How a command executes and what the host's next transaction does in each run state (10_state.md R53;
20_memory.md R96; 30_encoding.md R122; 70_reset_and_hazards.md R350, R361). -/

namespace Sys2Proof.Machine

/-- The command held in `CMD` executes to completion, one atomic step (30_encoding.md R122; 00_scope.md R18): the run state is
`IDLE` after it, or `FAULT` by its fault entry. An illegal word raises `E_ILLEGAL(0)` before anything is read (R118). -/
def runCommand (s : State) : Host.Outcome State Fault Refusal :=
  match decode s.cmd with
  | .ok i => exec i { s with run := .idle }
  | .error _ => .next ({ s with run := .idle }.raise ⟨.illegal, 0⟩)

/-- A step in `BUSY`: a reset, a system-register read and a `CMD` write of the host happen now; otherwise the command
executes, and a DMEM access of the host waits (20_memory.md R96). DESIGN CHOICE, which R96 and 70_reset_and_hazards.md R362
leave open: nothing of the host passes an access that waits, a reset or a poll neither; the command runs in that step and the
access comes first after it (log 21). -/
def stepBusy (s : State) : Host.Outcome State Fault Refusal :=
  match s.host with
  | .reset :: _ => .next s.popHost.hostReset
  | .readSys reg :: _ => .next (s.popHost.hostReadSys reg)
  | .issue w :: _ => .next (s.popHost.holdWrite w)
  | .wait :: _ => runCommand s.popHost
  | .read _ _ :: _ => runCommand s
  | .write _ _ _ :: _ => runCommand s
  | [] => runCommand s

/-- A step in `IDLE`: a write that waited is performed first (70_reset_and_hazards.md R361), then the host's next transaction;
without either the core does nothing (R352). -/
def stepIdle (s : State) : Host.Outcome State Fault Refusal :=
  match s.waiting with
  | some w => .next ({ s with waiting := none }.accept w)
  | none =>
    match s.host with
    | [] => .next s
    | .reset :: _ => .next s.popHost.hostReset
    | .issue w :: _ => .next (s.popHost.accept w)
    | .read addr size :: _ => .next (s.popHost.hostRead addr size)
    | .write addr size v :: _ => .next (s.popHost.hostWrite addr size v)
    | .readSys reg :: _ => .next (s.popHost.hostReadSys reg)
    | .wait :: _ => .next s.popHost

/-- A step in `FAULT`: every `CMD` write is dropped, one that waited too; DMEM and the system registers stay accessible; the
only exit is reset (60_exceptions.md R322; 20_memory.md R96). -/
def stepFault (s : State) : Host.Outcome State Fault Refusal :=
  match s.waiting with
  | some _ => .next { s with waiting := none }
  | none =>
    match s.host with
    | [] => .next s
    | .reset :: _ => .next s.popHost.hostReset
    | .issue _ :: _ => .next s.popHost
    | .read addr size :: _ => .next (s.popHost.hostRead addr size)
    | .write addr size v :: _ => .next (s.popHost.hostWrite addr size v)
    | .readSys reg :: _ => .next (s.popHost.hostReadSys reg)
    | .wait :: _ => .next s.popHost

/-- The state in which the command word of `nbits` bits `w` is accepted and about to execute. The host's list is emptied, so that
no transaction of it comes first. -/
def placeCommand (s : State) (nbits w : Nat) : State :=
  { s with run := .busy, cmd := BitVec.ofNat 32 (w % 2 ^ nbits), host := [] }

end Sys2Proof.Machine
end

