-- ==== Sys2Proof/Machine/Step.lean ====
section
/-! DEFINITION. One step of the machine, by its run state (10_state.md R53). -/

namespace Sys2Proof.Machine

/-- One step. A build with illegal parameters does not exist (00_scope.md R5; 60_exceptions.md R310; log 14). -/
def step (s : State) : Host.Outcome State Fault Refusal :=
  if buildLegal s.build then
    match s.run with
    | .idle => stepIdle s
    | .busy => stepBusy s
    | .fault => stepFault s
  else .fault .configurationError

/-- The command word `w` accepted and about to execute: the very next step runs it. The machine fetches nothing; the host
issues each word (10_state.md R44; log 9). -/
def State.withFetchWord (s : State) (nbits w : Nat) : State := placeCommand s nbits w

end Sys2Proof.Machine
end

