-- ==== Sys2Proof/Machine/Assembly.lean ====
section
/-! DEFINITION. The assembler syntax (30_encoding.md R120) as the text of a command, and the pseudo-instructions (R121). -/

namespace Sys2Proof.Machine

/-- `x0` to `x15` (R120). -/
def xText (i : XReg) : String := "x" ++ toString i.val

/-- `r0` to `r15` (R120). -/
def rText (i : RReg) : String := "r" ++ toString i.val

/-- The name of a filter register as MFC writes it, without the index (10_state.md R51; R120). -/
def csrText : Csr → String
  | .b0 => "bq.b0"
  | .b1 => "bq.b1"
  | .b2 => "bq.b2"
  | .a1 => "bq.a1"
  | .a2 => "bq.a2"
  | .x1 => "bq.x1"
  | .x2 => "bq.x2"
  | .y1 => "bq.y1"
  | .y2 => "bq.y2"
  | .f1 => "svf.f1"
  | .q1 => "svf.q1"
  | .fs => "svf.fs"
  | .h => "svf.h"
  | .b => "svf.b"
  | .l => "svf.l"

/-- The name of a constant (R120). -/
def constText : ConstSel → String
  | .pi => "PI"
  | .twoPi => "TWO_PI"
  | .halfPi => "HALF_PI"
  | .negHalfPi => "NEG_HALF_PI"
  | .e => "E"
  | .sqrt2 => "SQRT2"

/-- Operands separated by commas. -/
def commas : List String → String
  | [] => ""
  | [s] => s
  | s :: t :: ss => s ++ ", " ++ commas (t :: ss)

/-- `simm16(ra)`, the memory operand of LD and ST (R120). -/
def memText (imm : BitVec 16) (ra : RReg) : String := toString imm.toInt ++ "(" ++ rText ra ++ ")"

/-- The operands of a command in the order of its syntax (R120). -/
def operandTexts : Instr → List String
  | .nop => []
  | .setr rd imm => [rText rd, toString imm.toNat]
  | .setrh rd imm => [rText rd, toString imm.toNat]
  | .addri rd ra imm => [rText rd, rText ra, toString imm.toInt]
  | .ld xd ra imm => [xText xd, memText imm ra]
  | .st xs ra imm => [xText xs, memText imm ra]
  | .mov xd xs => [xText xd, xText xs]
  | .mfc xd csr ch =>
    if csr.perChannel then [xText xd, csrText csr, toString ch.val] else [xText xd, csrText csr]
  | .polyHorner xd xa rb n => [xText xd, xText xa, rText rb, toString n.toNat]
  | .polyFma2 xd xa rb => [xText xd, xText xa, rText rb]
  | .polyEstrin xd xa rb n => [xText xd, xText xa, rText rb, toString n.toNat]
  | .polyRat xd xa rb rc n => [xText xd, xText xa, rText rb, rText rc, toString n.toNat]
  | .sinRef xd xa => [xText xd, xText xa]
  | .sinFast xd xa => [xText xd, xText xa]
  | .sinFaster xd xa => [xText xd, xText xa]
  | .cosRef xd xa => [xText xd, xText xa]
  | .cosFast xd xa => [xText xd, xText xa]
  | .cosFaster xd xa => [xText xd, xText xa]
  | .tanRef xd xa => [xText xd, xText xa]
  | .tanFast xd xa => [xText xd, xText xa]
  | .tanFaster xd xa => [xText xd, xText xa]
  | .tanhRef xd xa => [xText xd, xText xa]
  | .tanhFast xd xa => [xText xd, xText xa]
  | .log2Ref xd xa => [xText xd, xText xa]
  | .log2Fast xd xa => [xText xd, xText xa]
  | .log2Bit xd xa => [xText xd, xText xa]
  | .sqrtRef xd xa => [xText xd, xText xa]
  | .sqrtFast xd xa => [xText xd, xText xa]
  | .fmin xd xa xb => [xText xd, xText xa, xText xb]
  | .fmax xd xa xb => [xText xd, xText xa, xText xb]
  | .clip xd xa xb xc => [xText xd, xText xa, xText xb, xText xc]
  | .within rd xa xb xc => [rText rd, xText xa, xText xb, xText xc]
  | .const xd k => [xText xd, constText k]
  | .bqLpN xa xb => [xText xa, xText xb]
  | .bqLpCs xa xb xc => [xText xa, xText xb, xText xc]
  | .bqLpD xa xb => [xText xa, xText xb]
  | .bqHpN xa xb => [xText xa, xText xb]
  | .bqHpCs xa xb xc => [xText xa, xText xb, xText xc]
  | .bqHpD xa xb => [xText xa, xText xb]
  | .bqBpN xa xb => [xText xa, xText xb]
  | .bqBpCs xa xb xc => [xText xa, xText xb, xText xc]
  | .bqBpD xa xb => [xText xa, xText xb]
  | .bqBrN xa xb => [xText xa, xText xb]
  | .bqBrCs xa xb xc => [xText xa, xText xb, xText xc]
  | .bqBrD xa xb => [xText xa, xText xb]
  | .bqApN xa xb => [xText xa, xText xb]
  | .bqApCs xa xb xc => [xText xa, xText xb, xText xc]
  | .bqApD xa xb => [xText xa, xText xb]
  | .bqProc xd xa ch => [xText xd, xText xa, toString ch.val]
  | .bqBuf ra rb ch => [rText ra, rText rb, toString ch.val]
  | .bqOpt ra rb ch => [rText ra, rText rb, toString ch.val]
  | .bqOpt2 rd ra rb ch => [rText rd, rText ra, rText rb, toString ch.val]
  | .bqMbuf ra rb => [rText ra, rText rb]
  | .bqMopt ra rb => [rText ra, rText rb]
  | .bqMopt2 rd ra rb => [rText rd, rText ra, rText rb]
  | .svfReset xa => [xText xa]
  | .svfSetc rd xa xb => [rText rd, xText xa, xText xb]
  | .svfSetu xa xb => [xText xa, xText xb]
  | .svfProcHp xd xa ch => [xText xd, xText xa, toString ch.val]
  | .svfProcBp xd xa ch => [xText xd, xText xa, toString ch.val]
  | .svfProcLp xd xa ch => [xText xd, xText xa, toString ch.val]
  | .svfFrame rd xa ch => [rText rd, xText xa, toString ch.val]
  | .svfBufHp ra rb ch => [rText ra, rText rb, toString ch.val]
  | .svfBufBp ra rb ch => [rText ra, rText rb, toString ch.val]
  | .svfBufLp ra rb ch => [rText ra, rText rb, toString ch.val]
  | .svfMbufHp ra rb => [rText ra, rText rb]
  | .svfMbufBp ra rb => [rText ra, rText rb]
  | .svfMbufLp ra rb => [rText ra, rText rb]

/-- A command as the assembler writes it: the mnemonic, then the operands (R120). -/
def instrText (i : Instr) : String :=
  match operandTexts i with
  | [] => i.mnemonic
  | ops => i.mnemonic ++ " " ++ commas ops

/-- `LI rd, imm32` (R121). -/
def pseudoLi (rd : RReg) (imm : Word) : List Instr :=
  [.setr rd (imm.extractLsb' 0 16), .setrh rd (imm.extractLsb' 16 16)]

/-- `MOVR rd, ra` (R121). -/
def pseudoMovr (rd ra : RReg) : List Instr := [.addri rd ra 0]

/-- `NEXT rd`: one element further (R121). -/
def pseudoNext (f : Fmt) (rd : RReg) : List Instr := [.addri rd rd (BitVec.ofNat 16 (eb f))]

end Sys2Proof.Machine
end

