-- ==== Sys2Proof/Safety.lean ====
section
/-! DEFINITION. The words claims are stated in: the real value of a pattern, the accuracy properties of a legal configuration,
frames, invariants, and list forms of the filters that name no memory. -/

namespace Sys2Proof.Machine

/-! ## Values (00_scope.md R8, R13) -/

/-- `real(a)` of a finite pattern (00_scope.md section 5.3). -/
def realOf (f : Fmt) (v : Pat) : Option ℚ :=
  match unpack f v with
  | .fin neg m e => some ((signed neg m : ℚ) * (2 : ℚ) ^ e)
  | .inf _ => none
  | .nan => none

/-- The value of a pattern that is not a NaN, infinities beyond every finite value (R13). -/
def orderOf (f : Fmt) (v : Pat) : Option (WithBot (WithTop ℚ)) :=
  match unpack f v with
  | .fin neg m e => some (((signed neg m : ℚ) * (2 : ℚ) ^ e : ℚ) : WithTop ℚ)
  | .inf false => some ((⊤ : WithTop ℚ) : WithBot (WithTop ℚ))
  | .inf true => some ⊥
  | .nan => none

/-- The pattern is a finite value. -/
def isFinite (f : Fmt) (v : Pat) : Bool := decide (magOf f v < infMag f)

/-- The pattern is a zero of either sign. -/
def isZero (f : Fmt) (v : Pat) : Bool := decide (magOf f v = 0)

/-- `v` is a finite value of the format nearest to the real `r`, the even one of two that are equally near (R9). -/
def NearestTo (f : Fmt) (r : ℝ) (v : Pat) : Prop :=
  ∃ y : ℚ, realOf f v = some y ∧
    ∀ w z, realOf f w = some z → |(y : ℝ) - r| ≤ |(z : ℝ) - r| ∧
      (|(y : ℝ) - r| = |(z : ℝ) - r| → y ≠ z → v.toNat % 2 = 0)

/-- The least magnitude that rounds beyond the largest finite value: half a last place above it (R9). -/
def overflowBound : Fmt → ℚ
  | .b32 => (2 ^ 25 - 1) * 2 ^ 103
  | .b64 => (2 ^ 54 - 1) * 2 ^ 970

/-- `v` is the real `r` rounded to the format by roundTiesToEven, an overflow being the infinity of its sign (R9). -/
def RoundsTo (f : Fmt) (r : ℝ) (v : Pat) : Prop :=
  fits f v = true ∧ (|r| < (overflowBound f : ℝ) → NearestTo f r v) ∧
    ((overflowBound f : ℝ) ≤ r → v = infPat f false) ∧ (r ≤ -(overflowBound f : ℝ) → v = infPat f true)

/-- A rational cut toward zero (R14). -/
def truncate (q : ℚ) : ℤ := if 0 ≤ q then ⌊q⌋ else ⌈q⌉

/-! ## Accuracy of a configuration (42_approximation.md R181, R183, R201) -/

/-- The real functions of R181. -/
noncomputable def stdFn : RefFn → ℝ → ℝ
  | .sin, r => Real.sin r
  | .cos, r => Real.cos r
  | .tan, r => Real.tan r
  | .tanh, r => Real.tanh r
  | .log2, r => Real.logb 2 r

/-- Where they are defined. -/
def stdDefined : RefFn → ℝ → Prop
  | .tan, r => Real.cos r ≠ 0
  | .log2, r => 0 < r
  | .sin, _ => True
  | .cos, _ => True
  | .tanh, _ => True

/-- `REF_ACC` (R181): within 5e-7 of the correctly rounded function wherever that is finite. -/
def RefAcc (b : Build) : Prop :=
  ∀ fn x r v y, realOf b.fmt x = some r → stdDefined fn (r : ℝ) → NearestTo b.fmt (stdFn fn (r : ℝ)) v →
    realOf b.fmt v = some y →
    ∃ z, realOf b.fmt (refApply b fn x) = some z ∧ |z - y| ≤ 5 / 10000000

/-- The binary32 operand LOG2.BIT works on (R200). -/
def log2Operand (f : Fmt) (x : Pat) : Pat :=
  match f with
  | .b32 => x
  | .b64 => narrow32 x

/-- The pattern is a positive normal finite binary32 value (R201). -/
def PosNormal32 (v : Pat) : Prop := 0x00800000 ≤ v.toNat ∧ v.toNat ≤ 0x7F7FFFFF

/-- `x` is finite and its value lies in a set of reals (R183). -/
def ValueIn (f : Fmt) (S : Set ℝ) (x : Pat) : Prop := ∃ r : ℚ, realOf f x = some r ∧ (r : ℝ) ∈ S

/-- An OPEN `DOM[v]` as a closed interval of reals (R183; log 16). -/
def closedInterval (d : Bound) : Set ℝ := Set.Icc (d.lo : ℝ) (d.hi : ℝ)

/-- `x in DOM[v]` (R183; for `LOG2B` R201). -/
def InDomain (b : Build) : FastFn → Pat → Prop
  | .sinFast => ValueIn b.fmt (Set.Ioo (-Real.pi) Real.pi)
  | .sinFaster => ValueIn b.fmt (Set.Ioo (-Real.pi) Real.pi)
  | .tanFast => ValueIn b.fmt (Set.Ioo (-(Real.pi / 2) + 1 / 20) (Real.pi / 2 - 1 / 20))
  | .tanFaster => ValueIn b.fmt (Set.Ioo (-(Real.pi / 2) + 1 / 20) (Real.pi / 2 - 1 / 20))
  | .cosFast => ValueIn b.fmt (closedInterval b.bounds.cosFast)
  | .cosFaster => ValueIn b.fmt (closedInterval b.bounds.cosFaster)
  | .tanhFast => ValueIn b.fmt (closedInterval b.bounds.tanhFast)
  | .log2Fast => ValueIn b.fmt (closedInterval b.bounds.log2Fast)
  | .sqrtFast => ValueIn b.fmt (closedInterval b.bounds.sqrtFast)
  | .log2b => fun x => PosNormal32 (log2Operand b.fmt x)

/-- `TOL[v]` (R183). -/
def fastTol (b : Build) : FastFn → ℚ
  | .sinFast => 1 / 20
  | .sinFaster => 1 / 10
  | .tanFast => 1 / 20
  | .tanFaster => 1 / 10
  | .cosFast => b.bounds.cosFast.tol
  | .cosFaster => b.bounds.cosFaster.tol
  | .tanhFast => b.bounds.tanhFast.tol
  | .log2Fast => b.bounds.log2Fast.tol
  | .sqrtFast => b.bounds.sqrtFast.tol
  | .log2b => 1 / 200

/-- `G_v`, the function the variant's rule computes (R183). -/
def fastFn (b : Build) : FastFn → Pat → Pat
  | .sinFast, x => fastEval b.fmt b.tables.sinFast x
  | .sinFaster, x => fastEval b.fmt b.tables.sinFaster x
  | .tanFast, x => fastEval b.fmt b.tables.tanFast x
  | .tanFaster, x => fastEval b.fmt b.tables.tanFaster x
  | .cosFast, x => fastEval b.fmt b.tables.sinFast (cosRed b.fmt x)
  | .cosFaster, x => fastEval b.fmt b.tables.sinFaster (cosRed b.fmt x)
  | .tanhFast, x => fastEval b.fmt b.tables.tanhFast x
  | .log2Fast, x => fastEval b.fmt b.tables.log2Fast x
  | .sqrtFast, x => fastEval b.fmt b.tables.sqrtFast x
  | .log2b, x => log2BitFn b.fmt b.tables.log2b x

/-- The reference variant a fast variant is compared with (R183; SQRT.REF is `fsqrt`, R202). -/
def fastRef (b : Build) : FastFn → Pat → Pat
  | .sinFast, x => refApply b .sin x
  | .sinFaster, x => refApply b .sin x
  | .tanFast, x => refApply b .tan x
  | .tanFaster, x => refApply b .tan x
  | .cosFast, x => refApply b .cos x
  | .cosFaster, x => refApply b .cos x
  | .tanhFast, x => refApply b .tanh x
  | .log2Fast, x => refApply b .log2 x
  | .sqrtFast, x => fsqrt b.fmt x
  | .log2b, x => refApply b .log2 x

/-- `FAST_ACC[v]` (R183), `LOG2B` among the `v`: LOG2.BIT against the configuration's `REF_LOG2`. -/
def FastAcc (b : Build) (v : FastFn) : Prop :=
  ∀ x, fits b.fmt x = true → InDomain b v x →
    ∃ y z, realOf b.fmt (fastFn b v x) = some y ∧ realOf b.fmt (fastRef b v x) = some z ∧ |y - z| ≤ fastTol b v

/-- `LOG2B_ACC` (R201): LOG2.BIT against the real logarithm of the narrowed operand, beside `FastAcc b .log2b`. -/
def Log2bAcc (b : Build) : Prop :=
  ∀ x r, fits b.fmt x = true → PosNormal32 (log2Operand b.fmt x) → realOf .b32 (log2Operand b.fmt x) = some r →
    ∃ y, realOf b.fmt (log2BitFn b.fmt b.tables.log2b x) = some y ∧ |(y : ℝ) - Real.logb 2 (r : ℝ)| ≤ 1 / 200

/-- "A configuration is legal only if all ten hold" (R183), with `REF_ACC` (R181) and `LOG2B_ACC` (R201). No step of the model
rests on it (log 15). -/
def ConfigurationAccurate (b : Build) : Prop :=
  RefAcc b ∧ (∀ v, FastAcc b v) ∧ Log2bAcc b

/-! ## Invariants -/

/-- DMEM is in canonical form. -/
def DmemCanonical (s : State) : Prop := Memory.wf s.dmem

/-- DMEM lists no address at or above `MEM_BYTES` (20_memory.md R80). -/
def DmemInside (s : State) : Prop := ∀ c ∈ s.dmem, c.1 < s.build.memBytes

/-- The five coefficients are `FMT` patterns. -/
def coefFits (f : Fmt) (k : BqCoef) : Prop :=
  fits f k.b0 ∧ fits f k.b1 ∧ fits f k.b2 ∧ fits f k.a1 ∧ fits f k.a2

/-- A delay state holds `FMT` patterns. -/
def delayFits (f : Fmt) (d : BqDelay) : Prop := fits f d.x1 ∧ fits f d.x2 ∧ fits f d.y1 ∧ fits f d.y2

/-- The state-variable coefficients are `FMT` patterns. -/
def svfCoefFits (f : Fmt) (k : SvfCoef) : Prop := fits f k.f1 ∧ fits f k.q1 ∧ fits f k.fs

/-- A state-variable channel state holds `FMT` patterns. -/
def svfChanFits (f : Fmt) (v : SvfChan) : Prop := fits f v.h ∧ fits f v.b ∧ fits f v.l

/-- Every data and filter register is `FLEN` bits wide (10_state.md R40, R46 to R49). -/
def RegistersFit (s : State) : Prop :=
  (∀ i, fits s.fmt (s.getX i)) ∧ coefFits s.fmt s.bq ∧ (∀ c, delayFits s.fmt (s.getDelay c)) ∧
    svfCoefFits s.fmt s.svf ∧ ∀ c, svfChanFits s.fmt (s.getSvf c)

/-- What the model keeps for channels the build does not have is never touched (10_state.md R47, R49; log 7). -/
def AbsentChannelsZero (s : State) : Prop :=
  ∀ c : Chan, s.build.nch ≤ c.val →
    s.getDelay c = { x1 := 0, x2 := 0, y1 := 0, y2 := 0 } ∧ s.getSvf c = { h := 0, b := 0, l := 0 }

/-- `CAUSE`, `FINFO` and `FCMD` are 0 until a fault, and then `CAUSE` holds one of the six codes (10_state.md R52;
60_exceptions.md R311). -/
def FaultRegsLegal (s : State) : Prop :=
  (s.run = .fault → ∃ c, s.cause = causeCode c) ∧
    (s.run ≠ .fault → s.cause = 0 ∧ s.finfo = 0 ∧ s.fcmd = 0)

/-! ## Frames: two states that agree but for the parts named -/

/-- All but the data registers. -/
def SameButX (s t : State) : Prop := t = { s with x := t.x }

/-- All but the integer registers. -/
def SameButR (s t : State) : Prop := t = { s with r := t.r }

/-- All but DMEM. -/
def SameButDmem (s t : State) : Prop := t = { s with dmem := t.dmem }

/-- All but the biquad coefficients. -/
def SameButBq (s t : State) : Prop := t = { s with bq := t.bq }

/-- All but the biquad delay state and DMEM. -/
def SameButDelayDmem (s t : State) : Prop := t = { s with bqd := t.bqd, dmem := t.dmem }

/-- All but the state-variable channel state and DMEM. -/
def SameButSvfDmem (s t : State) : Prop := t = { s with svfc := t.svfc, dmem := t.dmem }

/-- Data registers other than `d` agree. -/
def OtherX (d : XReg) (s t : State) : Prop := ∀ j, j ≠ d → t.getX j = s.getX j

/-- Integer registers other than `d` agree. -/
def OtherR (d : RReg) (s t : State) : Prop := ∀ j, j ≠ d → t.getR j = s.getR j

/-- The biquad delay states of the channels other than `c` agree. -/
def OtherDelays (c : Chan) (s t : State) : Prop := ∀ j, j ≠ c → t.getDelay j = s.getDelay j

/-- The state-variable states of the channels other than `c` agree. -/
def OtherSvf (c : Chan) (s t : State) : Prop := ∀ j, j ≠ c → t.getSvf j = s.getSvf j

/-- Every byte outside the `len` bytes from `a` reads as before. -/
def BytesOutside (a len : Nat) (m m' : Memory) : Prop :=
  ∀ p, p < a ∨ a + len ≤ p → readByte m' p = readByte m p

/-! ## Regions in the words of 20_memory.md R83, R88 -/

/-- A region of `count` elements that passes its check. -/
def RegionOk (b : Build) (base : Word) (count : Nat) : Prop :=
  count = 0 ∨ (base.toNat % eb b.fmt = 0 ∧ base.toNat + count * eb b.fmt ≤ b.memBytes)

/-- A pointer table that passes its check. -/
def TableOk (b : Build) (base : Word) : Prop :=
  b.nch = 0 ∨ (base.toNat % 4 = 0 ∧ base.toNat + b.nch * 4 ≤ b.memBytes)

/-- The byte ranges of `len` bytes from `i` and from `o` share no byte (60_exceptions.md R317). -/
def Disjoint2 (i o : Word) (len : Nat) : Prop := i.toNat + len ≤ o.toNat ∨ o.toNat + len ≤ i.toNat

/-! ## List forms of the filters (43_biquad.md R251; 44_svf.md R291): no memory, one sample after the other -/

/-- The outputs and the final delay state of BQ_STEP on a list of inputs. -/
def bqSamples (f : Fmt) (k : BqCoef) : BqDelay → List Pat → List Pat × BqDelay
  | d, [] => ([], d)
  | d, x :: xs =>
    let y := bqF f k x d.x1 d.x2 d.y1 d.y2
    let r := bqSamples f k { x1 := x, x2 := d.x1, y1 := y, y2 := d.y1 } xs
    (y :: r.1, r.2)

/-- The selected outputs and the final channel state of SVF_STEP on a list of inputs. -/
def svfSamples (b : Build) (k : SvfCoef) (o : SvfOut) : SvfChan → List Pat → List Pat × SvfChan
  | v, [] => ([], v)
  | v, x :: xs =>
    let v' := svfStep b k v x
    let r := svfSamples b k o v' xs
    (svfPick o v' :: r.1, r.2)

/-! ## Horner's loop (41_polynomial.md R161) on `n` coefficients given by their index -/

/-- `acc := c[n-1]; for i := n-2 downto 0: acc := acc·x + c[i]`, two roundings a step. -/
def hornerLoop (f : Fmt) (c : Nat → Pat) (n : Nat) (x : Pat) : Pat :=
  (List.range (n - 1)).foldr (fun i acc => fadd f (fmul f acc x) (c i)) (c (n - 1))

/-- The coefficient of index `i` of the sequence at `base` (R160). -/
def coefficient (s : State) (base : Word) (i : Nat) : Pat := elem s.fmt s.dmem (base.toNat + i * eb s.fmt)

/-! ## What one command does -/

/-- The command ends with `v` in `x[d]` and nothing else changed. -/
def SetsX (i : Instr) (s : State) (d : XReg) (v : Pat) : Prop :=
  ∃ t, exec i s = .next t ∧ SameButX s t ∧ OtherX d s t ∧ t.getX d = v

/-- The command ends with `v` in `r[d]` and nothing else changed. -/
def SetsR (i : Instr) (s : State) (d : RReg) (v : Word) : Prop :=
  ∃ t, exec i s = .next t ∧ SameButR s t ∧ OtherR d s t ∧ t.getR d = v

/-- The command ends with the five biquad coefficients `k` and nothing else changed. -/
def SetsBq (i : Instr) (s : State) (k : BqCoef) : Prop := ∃ t, exec i s = .next t ∧ SameButBq s t ∧ t.bq = k

/-- The command ends by the fault entry of 60_exceptions.md R320 with a code and a recorded value: `CAUSE`, `FINFO`, `FCMD`
and the run state, nothing else. -/
def FaultsWith (i : Instr) (s : State) (code : BitVec 4) (info : Word) : Prop :=
  exec i s = .next { s with run := .fault, cause := code, finfo := info, fcmd := s.cmd }

/-- A step in `BUSY` that executes the command, and the state it executes it in: the host has nothing to do, waits with a DMEM
access (20_memory.md R96; log 21), or stands back (log 9). -/
def CommandTurn (s u : State) : Prop :=
  s.run = .busy ∧
    ((s.host = [] ∧ u = s) ∨ (∃ a n rest, s.host = .read a n :: rest ∧ u = s) ∨
      (∃ a n v rest, s.host = .write a n v :: rest ∧ u = s) ∨
      ∃ rest, s.host = .wait :: rest ∧ u = { s with host := rest })

/-! ## The value constraints of 30_encoding.md R116 that a mask cannot express -/

/-- `imm8` of a word. -/
def imm8Field (w : Word) : Nat := w.toNat % 256

/-- Field `a` of a word. -/
def aField (w : Word) : Nat := w.toNat / 65536 % 16

/-- The CSR numbers of registers that are one per channel (10_state.md R51). -/
def perChannelCsrNumbers : List Nat := [0x08, 0x09, 0x0A, 0x0B, 0x18, 0x19, 0x1A]

/-- The CSR numbers of the other registers (10_state.md R51). -/
def sharedCsrNumbers : List Nat := [0x00, 0x01, 0x02, 0x03, 0x04, 0x10, 0x11, 0x12]

/-- `N ≠ 0`, `k ≤ 5`, and for MFC a CSR number of the table, with `a = 0` when the register is not per channel (R116). -/
def valueConstraint (mnemonic : String) (w : Word) : Prop :=
  if mnemonic = "POLY.HORNER" ∨ mnemonic = "POLY.ESTRIN" ∨ mnemonic = "POLY.RAT" then imm8Field w ≠ 0
  else if mnemonic = "CONST" then imm8Field w ≤ 5
  else if mnemonic = "MFC" then
    imm8Field w ∈ perChannelCsrNumbers ∨ (imm8Field w ∈ sharedCsrNumbers ∧ aField w = 0)
  else True

/-! ## Who writes what (10_state.md R42, R46 to R49; 20_memory.md R81) -/

/-- The commands that write a data register (R42). -/
def writesX : Instr → Bool
  | .ld _ _ _ | .mov _ _ | .mfc _ _ _ | .const _ _ | .polyHorner _ _ _ _ | .polyFma2 _ _ _ | .polyEstrin _ _ _ _ |
    .polyRat _ _ _ _ _ | .sinRef _ _ | .sinFast _ _ | .sinFaster _ _ | .cosRef _ _ | .cosFast _ _ | .cosFaster _ _ |
    .tanRef _ _ | .tanFast _ _ | .tanFaster _ _ | .tanhRef _ _ | .tanhFast _ _ | .log2Ref _ _ | .log2Fast _ _ |
    .log2Bit _ _ | .sqrtRef _ _ | .sqrtFast _ _ | .fmin _ _ _ | .fmax _ _ _ | .clip _ _ _ _ | .bqProc _ _ _ |
    .svfProcHp _ _ _ | .svfProcBp _ _ _ | .svfProcLp _ _ _ => true
  | _ => false

/-- The commands that write an integer register (R42). -/
def writesR : Instr → Bool
  | .setr _ _ | .setrh _ _ | .addri _ _ _ | .within _ _ _ _ | .svfSetc _ _ _ => true
  | _ => false

/-- The fifteen biquad coefficient commands (R46). -/
def writesBq : Instr → Bool
  | .bqLpN _ _ | .bqLpCs _ _ _ | .bqLpD _ _ | .bqHpN _ _ | .bqHpCs _ _ _ | .bqHpD _ _ | .bqBpN _ _ | .bqBpCs _ _ _ |
    .bqBpD _ _ | .bqBrN _ _ | .bqBrCs _ _ _ | .bqBrD _ _ | .bqApN _ _ | .bqApCs _ _ _ | .bqApD _ _ => true
  | _ => false

/-- The commands that write the biquad delay state (R47). -/
def writesDelay : Instr → Bool
  | .bqProc _ _ _ | .bqBuf _ _ _ | .bqOpt _ _ _ | .bqOpt2 _ _ _ _ | .bqMbuf _ _ | .bqMopt _ _ | .bqMopt2 _ _ _ => true
  | _ => false

/-- The commands that write the state-variable coefficients (R48). -/
def writesSvfCoef : Instr → Bool
  | .svfReset _ | .svfSetc _ _ _ | .svfSetu _ _ => true
  | _ => false

/-- The commands that write the state-variable channel state (R49). -/
def writesSvfChan : Instr → Bool
  | .svfReset _ | .svfProcHp _ _ _ | .svfProcBp _ _ _ | .svfProcLp _ _ _ | .svfFrame _ _ _ | .svfBufHp _ _ _ |
    .svfBufBp _ _ _ | .svfBufLp _ _ _ | .svfMbufHp _ _ | .svfMbufBp _ _ | .svfMbufLp _ _ => true
  | _ => false

/-- The commands that write DMEM (20_memory.md R81). -/
def writesDmem : Instr → Bool
  | .st _ _ _ | .bqBuf _ _ _ | .bqOpt _ _ _ | .bqOpt2 _ _ _ _ | .bqMbuf _ _ | .bqMopt _ _ | .bqMopt2 _ _ _ |
    .svfFrame _ _ _ | .svfBufHp _ _ _ | .svfBufBp _ _ _ | .svfBufLp _ _ _ | .svfMbufHp _ _ | .svfMbufBp _ _ |
    .svfMbufLp _ _ => true
  | _ => false

/-- The channel a per-channel processing command names (30_encoding.md R114). -/
def processingChannel : Instr → Option Chan
  | .bqProc _ _ c | .bqBuf _ _ c | .bqOpt _ _ c | .bqOpt2 _ _ _ c | .svfProcHp _ _ c | .svfProcBp _ _ c |
    .svfProcLp _ _ c | .svfFrame _ _ c | .svfBufHp _ _ c | .svfBufBp _ _ c | .svfBufLp _ _ c => some c
  | _ => none

end Sys2Proof.Machine
end

