-- ==== Sys2Proof/Certificates/Slice0/Obligations.lean ====
section
/-! DEFINITION. The statements about the model, each with the rules of spec/ it formalises. -/

section Statements

open Sys2Proof Sys2Proof.Machine

/-- For every well-formed command, with every operand at every value its field admits, decoding its encoding gives
that command: no operand bit is dropped and no two commands share a word (30_encoding.md R111, R112, R114, R116). -/
def Obligations.DecodeOfEncodedCommand : Prop :=
  ∀ i : Instr, i.wellFormed = true → decode (encode i) = .ok i

/-- Every 32-bit word that decodes to a command is the one word of that command, and the command is well formed: no
bit of the word is ignored (30_encoding.md R116, R117). -/
def Obligations.EncodeOfDecodedWord : Prop :=
  ∀ (w : Word) (i : Instr), decode w = .ok i → i.wellFormed = true ∧ encode i = w

/-- Every 32-bit word either decodes to a command whose row is the one row of R116 that the word selects with its
value constraints met, or is illegal and selects no such row; no word matches the mask and pattern of two of the 68
rows. The decoder is a function of the word alone (30_encoding.md R117). -/
def Obligations.DecoderAcceptsExactlyTheTable : Prop :=
  opcodeRows.length = 68 ∧
  (opcodeRows.Pairwise fun p q => ∀ w : Word, ¬(w &&& p.mask = p.pattern ∧ w &&& q.mask = q.pattern)) ∧
  ∀ w : Word,
  (∃ i, decode w = .ok i ∧
    ∃! row, row ∈ opcodeRows ∧ w &&& row.mask = row.pattern ∧ valueConstraint row.mnemonic w ∧ row.mnemonic = i.mnemonic) ∨
  ((∃ why, decode w = .error why) ∧
    ¬∃ row, row ∈ opcodeRows ∧ w &&& row.mask = row.pattern ∧ valueConstraint row.mnemonic w)

/-- Words that the spec gives in its rules' examples decode to the commands written beside them there, and words it
calls illegal do not decode: an unlisted opcode, a nonzero unused field, a variant that R180 reserves, and N = 0
(30_encoding.md R116, R118; 42_approximation.md R180; 60_exceptions.md R312). The names of the reasons are the
model's. -/
def Obligations.SampleWordsDecode : Prop :=
  decode 0x00000000#32 = .ok .nop ∧
  decode 0x02100001#32 = .ok (.setrh 1 0x0001) ∧
  decode 0x0321FFFC#32 = .ok (.addri 2 1 0xFFFC) ∧
  decode 0x04110008#32 = .ok (.ld 1 1 0x0008) ∧
  decode 0x0841000A#32 = .ok (.mfc 4 .y1 1) ∧
  decode 0x10312003#32 = .ok (.polyHorner 3 1 2 3) ∧
  decode 0x13312403#32 = .ok (.polyRat 3 1 2 4 3) ∧
  decode 0x2A412300#32 = .ok (.clip 4 1 2 3) ∧
  decode 0x07100000#32 = .ok (.const 1 .pi) ∧
  decode 0x30012301#32 = .ok (.bqLpCs 1 2 3) ∧
  decode 0x3B312000#32 = .ok (.bqOpt2 3 1 2 0) ∧
  decode 0x41512000#32 = .ok (.svfSetc 5 1 2) ∧
  decode 0x45012021#32 = .ok (.svfBufLp 1 2 1) ∧
  decode 0x09000000#32 = .error .unlistedOpcode ∧
  decode 0x06310001#32 = .error .unusedField ∧
  decode 0x24010002#32 = .error .reservedSelector ∧
  decode 0x10312000#32 = .error .zeroLength

/-- In BUSY, when the word in CMD decodes to a command and the host leaves the core its turn, the step is that command
executed on the state whose run state is already IDLE, where a command that completes leaves it (30_encoding.md R122;
BUSY as a state of its own is the model's choice, log 10, and the host's list is log 9; that the core has its turn
whenever a DMEM access stands first, whatever follows it, is the model's choice, log 21). The same of a word that
withFetchWord places. -/
def Obligations.StepRunsTheDecodedCommand : Prop :=
  (∀ (s u : State) (i : Instr), buildLegal s.build = true → CommandTurn s u → decode s.cmd = .ok i →
    step s = exec i { u with run := .idle }) ∧
  ∀ (s : State) (w : Word) (i : Instr), buildLegal s.build = true → decode w = .ok i →
    step (s.withFetchWord 32 w.toNat) = exec i { s with run := .idle, cmd := w, host := [] }

/-- When the accepted word is not a command, its turn ends by fault entry with code 1, FINFO 0 and FCMD the word; no
register, filter register or DMEM byte changes (30_encoding.md R118, R122; 60_exceptions.md R312, R320). When the word
has its turn is the model's choice (logs 9, 10, 21). -/
def Obligations.IllegalWordFaults : Prop :=
  ∀ (s u : State) (why : Illegal), buildLegal s.build = true → CommandTurn s u → decode s.cmd = .error why →
  step s = .next { u with run := .fault, cause := 1, finfo := 0, fcmd := s.cmd }

/-- Every command, on every state, answers a next state, and so does every step of a machine with a legal build. A
build with illegal parameters does not exist (R5, R310); that a step of the model stops there, with
configurationError, is the model's choice (log 14). -/
def Obligations.StepAndCommandsAlwaysAnswer : Prop :=
  (∀ (i : Instr) (s : State), ∃ t, exec i s = .next t) ∧
  (∀ s : State, buildLegal s.build = true → ∃ t, step s = .next t) ∧
  ∀ s : State, buildLegal s.build = false → step s = .fault .configurationError

/-- When a command ends in FAULT, the new state is the old one with the run state FAULT, a cause code from 2 to 6, the
recorded value, and FCMD the command word: no data, integer or filter register and no byte of DMEM differs
(60_exceptions.md R320, R321; E_ILLEGAL, code 1, is raised by decode). -/
def Obligations.FaultsArePrecise : Prop :=
  ∀ (i : Instr) (s t : State), i.wellFormed = true → s.run = .idle → exec i s = .next t → t.run = .fault →
  ∃ (code : BitVec 4) (info : Word), 2 ≤ code.toNat ∧ code.toNat ≤ 6 ∧
    t = { s with run := .fault, cause := code, finfo := info, fcmd := s.cmd }

/-- Whatever a command does, a part of the state that it changes is one the spec lists it as a writer of: data
registers and integer registers (R42), biquad coefficients (R46), biquad delay state (R47), state-variable
coefficients (R48), the sample rate by SVF.RESET alone (R48), state-variable channel state (R49), DMEM (20_memory.md
R81). The accepted word, the waiting write, the build and the host's side are written by no command. -/
def Obligations.OnlyTheListedCommandsWrite : Prop :=
  ∀ (i : Instr) (s t : State), exec i s = .next t →
  (t.x ≠ s.x → writesX i = true) ∧ (t.r ≠ s.r → writesR i = true) ∧ (t.bq ≠ s.bq → writesBq i = true) ∧
  (t.bqd ≠ s.bqd → writesDelay i = true) ∧ (t.svf ≠ s.svf → writesSvfCoef i = true) ∧
  (t.svf.fs ≠ s.svf.fs → ∃ xa, i = .svfReset xa) ∧ (t.svfc ≠ s.svfc → writesSvfChan i = true) ∧
  (t.dmem ≠ s.dmem → writesDmem i = true) ∧ t.cmd = s.cmd ∧ t.waiting = s.waiting ∧ t.build = s.build ∧
  t.host = s.host ∧ t.hostData = s.hostData ∧ t.free = s.free

/-- In FAULT: a CMD write is dropped with no effect; the host reads the system registers and reads and writes DMEM;
whatever step is taken that is not a reset, the run state stays FAULT and CAUSE, FINFO, FCMD, the registers and the
filter state stay; a reset clears STATUS, CAUSE, FINFO, FCMD and the filter state (60_exceptions.md R322). That a
write which waited from BUSY is dropped in a step of its own, before the host's next transaction and so before a
reset, is the model's choice (log 11), as is the list of transactions (log 9). -/
def Obligations.FaultIsStickyUntilReset : Prop :=
  ∀ s : State, buildLegal s.build = true → s.run = .fault →
  (∀ v, s.waiting = some v → step s = .next { s with waiting := none }) ∧
  (∀ w rest, s.waiting = none → s.host = .issue w :: rest → step s = .next { s with host := rest }) ∧
  (∀ g rest, s.waiting = none → s.host = .readSys g :: rest →
    step s = .next { s with host := rest, hostData := (s.readSys g).setWidth 64 }) ∧
  (∀ a n rest, s.waiting = none → s.host = .read a n :: rest → hostInRange s.build a n = true →
    step s = .next { s with host := rest, hostData := memRead s.dmem a.toNat (hostBytes n) }) ∧
  (∀ a n v rest, s.waiting = none → s.host = .write a n v :: rest → hostInRange s.build a n = true →
    step s = .next { s with host := rest, dmem := memWrite s.dmem a.toNat (hostBytes n) v }) ∧
  (∀ t, step s = .next t → (s.waiting ≠ none ∨ s.host.head? ≠ some .reset) →
    t.run = .fault ∧ t.cause = s.cause ∧ t.finfo = s.finfo ∧ t.fcmd = s.fcmd ∧ t.x = s.x ∧ t.r = s.r ∧ t.bq = s.bq ∧
      t.bqd = s.bqd ∧ t.svf = s.svf ∧ t.svfc = s.svfc) ∧
  (∀ t rest, s.waiting = none → s.host = .reset :: rest → step s = .next t →
    t.readSys .status = 0 ∧ t.readSys .cause = 0 ∧ t.readSys .finfo = 0 ∧ t.readSys .fcmd = 0 ∧
      t.bq = ⟨0, 0, 0, 0, 0⟩ ∧ t.svf = ⟨0, 0, 0⟩ ∧ ∀ c : Chan, t.getDelay c = ⟨0, 0, 0, 0⟩ ∧ t.getSvf c = ⟨0, 0, 0⟩)

/-- A reset that the host asserts, in whatever run state, leaves the biquad delay state, the state-variable channel
state, both coefficient sets and svf.fs at +0 and STATUS, CAUSE, FINFO and FCMD at 0, the core idle with irq low, and
the build as it was (70_reset_and_hazards.md R350 to R352). Nothing is said of x, r and DMEM, which R351 leaves
unspecified. That a reset clears a CMD write that waits, and that in IDLE and FAULT such a write goes first (so none
waits there in the hypotheses), is the model's choice (log 11). -/
def Obligations.HostResetLeavesTheResetState : Prop :=
  ∀ (s : State) (rest : List HostTx), buildLegal s.build = true → s.host = .reset :: rest →
  (s.run = .busy ∨ s.waiting = none) →
  ∃ t, step s = .next t ∧ t.run = .idle ∧ t.irq = false ∧ t.readSys .status = 0 ∧ t.readSys .cause = 0 ∧
    t.readSys .finfo = 0 ∧ t.readSys .fcmd = 0 ∧ t.waiting = none ∧ t.build = s.build ∧
    t.bq = { b0 := zero s.fmt, b1 := zero s.fmt, b2 := zero s.fmt, a1 := zero s.fmt, a2 := zero s.fmt } ∧
    t.svf = { f1 := zero s.fmt, q1 := zero s.fmt, fs := zero s.fmt } ∧
    ∀ c : Chan, t.getDelay c = { x1 := zero s.fmt, x2 := zero s.fmt, y1 := zero s.fmt, y2 := zero s.fmt } ∧
      t.getSvf c = { h := zero s.fmt, b := zero s.fmt, l := zero s.fmt }

/-- The model's state after reset has the run state IDLE, STATUS, CAUSE, FINFO and FCMD 0, irq low, and every filter
register +0 (10_state.md R57). CFG is that of the EXCFG build, which is the model's choice (log 2); nothing is said of
the registers and of DMEM, whose values are the model's choice (logs 3, 4). -/
def Obligations.StateResetHasTheSpecifiedValues : Prop :=
  State.reset.run = .idle ∧ State.reset.irq = false ∧ State.reset.readSys .status = 0 ∧ State.reset.readSys .cause = 0 ∧
  State.reset.readSys .finfo = 0 ∧ State.reset.readSys .fcmd = 0 ∧ State.reset.readSys .cfg = 0x00000010 ∧
  State.reset.bq = ⟨0, 0, 0, 0, 0⟩ ∧ State.reset.svf = ⟨0, 0, 0⟩ ∧
  (∀ c : Chan, State.reset.getDelay c = ⟨0, 0, 0, 0⟩ ∧ State.reset.getSvf c = ⟨0, 0, 0⟩) ∧
  State.reset.build = excfg .b32 ∧ buildLegal State.reset.build = true

/-- From every state whose DMEM is in canonical form and lists no address at or above MEM_BYTES, every step leaves a
DMEM that is so too: no command and no host access writes outside DMEM (20_memory.md R80, R88, R96; the canonical form
is the model's, log 4). -/
def Obligations.DmemInvariantIsKept : Prop :=
  ∀ s t : State, DmemCanonical s → DmemInside s → step s = .next t → DmemCanonical t ∧ DmemInside t

/-- From every state whose data registers and filter registers hold patterns of FLEN bits, every step leaves such a
state (10_state.md R40, R46 to R49; the container is 64 bits wide, log 6). -/
def Obligations.RegistersStayInFormat : Prop :=
  ∀ s t : State, RegistersFit s → step s = .next t → RegistersFit t

/-- The state kept for channel numbers at or above NCH, which the build does not have, stays zero in every step
(10_state.md R47, R49: the channels are 0 to NCH-1; sixteen containers are the model's choice, log 7). -/
def Obligations.AbsentChannelsStayUntouched : Prop :=
  ∀ s t : State, AbsentChannelsZero s → step s = .next t → AbsentChannelsZero t

/-- From every state in which CAUSE, FINFO and FCMD are 0 outside FAULT and CAUSE is one of the codes 1 to 6 in FAULT,
every step leaves such a state (10_state.md R52; 60_exceptions.md R311). -/
def Obligations.FaultRegistersStayLegal : Prop :=
  ∀ s t : State, FaultRegsLegal s → step s = .next t → FaultRegsLegal t

/-- Every step leaves the build parameters, and with them CFG, as they were (10_state.md R55: they never change during
a run; that they stand in State is the model's choice, log 1). -/
def Obligations.BuildNeverChanges : Prop :=
  ∀ s t : State, step s = .next t → t.build = s.build ∧ t.readSys .cfg = s.readSys .cfg

/-- The state of any build right after reset meets the five invariants that every step keeps, and so does State.reset.
From the spec: the filter registers are +0 and CAUSE, FINFO and FCMD are 0 (10_state.md R57). The model's choices:
DMEM lists nothing and is so in canonical form (log 4), the data registers are 0 (log 3), a register is FLEN bits of a
64-bit container (log 6), the channels at or above NCH are kept as zeros (log 7), and State.reset is EXCFG's (log 2).
-/
def Obligations.InvariantsHoldAtPowerOn : Prop :=
  (∀ b : Build, DmemCanonical (State.powerOn b) ∧ DmemInside (State.powerOn b) ∧ RegistersFit (State.powerOn b) ∧
    AbsentChannelsZero (State.powerOn b) ∧ FaultRegsLegal (State.powerOn b)) ∧
  DmemCanonical State.reset ∧ DmemInside State.reset ∧ RegistersFit State.reset ∧ AbsentChannelsZero State.reset ∧
  FaultRegsLegal State.reset

/-- MemRead(addr, n) has the byte at addr + i in bits 8i+7 to 8i and nothing above; MemWrite(addr, n, v) stores bits
8i+7 to 8i of v at addr + i, changes no other byte, and is read back. n is 4 or 8, the address a multiple of n inside
DMEM; the memory is in canonical form, which is the model's (log 4) (20_memory.md R84, R85). -/
def Obligations.MemReadAndMemWriteAreLittleEndian : Prop :=
  ∀ (b : Build) (m : Memory) (a n : Nat) (v : BitVec 64), Memory.wf m → (n = 4 ∨ n = 8) → a % n = 0 → a + n ≤ b.memBytes →
  (∀ i, i < n → (memRead m a n).extractLsb' (8 * i) 8 = readByte m (a + i)) ∧ (memRead m a n).toNat < 2 ^ (8 * n) ∧
  (∀ i, i < n → readByte (memWrite m a n v) (a + i) = v.extractLsb' (8 * i) 8) ∧
  (∀ p, p < a ∨ a + n ≤ p → readByte (memWrite m a n v) p = readByte m p)

/-- In IDLE and FAULT, with no CMD write waiting: a host write that is in range stores its bytes and changes nothing
else, and one that is not in range changes nothing; a host read changes no architectural state, and in range it
returns the bytes little-endian; neither raises a fault (20_memory.md R96; the list of transactions is the model's,
log 9, and so is that what a read returned stands in the state, log 12, where a read that is not performed gives a
free value). -/
def Obligations.HostAccessesOfDmem : Prop :=
  ∀ (s : State) (rest : List HostTx) (a : Word) (n : HostSize) (v : BitVec 64), buildLegal s.build = true →
  (s.run = .idle ∨ s.run = .fault) → s.waiting = none → DmemCanonical s →
  (s.host = .write a n v :: rest →
    ∃ t, step s = .next t ∧ t = { s with host := rest, dmem := t.dmem } ∧
      (a.toNat % hostBytes n = 0 ∧ a.toNat + hostBytes n ≤ s.build.memBytes →
        (∀ i, i < hostBytes n → readByte t.dmem (a.toNat + i) = v.extractLsb' (8 * i) 8) ∧
          BytesOutside a.toNat (hostBytes n) s.dmem t.dmem) ∧
      (¬(a.toNat % hostBytes n = 0 ∧ a.toNat + hostBytes n ≤ s.build.memBytes) → t.dmem = s.dmem)) ∧
  (s.host = .read a n :: rest →
    ∃ t, step s = .next t ∧ t = { s with host := rest, hostData := t.hostData, free := t.free } ∧
      (a.toNat % hostBytes n = 0 ∧ a.toNat + hostBytes n ≤ s.build.memBytes →
        (∀ i, i < hostBytes n → t.hostData.extractLsb' (8 * i) 8 = readByte s.dmem (a.toNat + i)) ∧
          t.hostData.toNat < 2 ^ (8 * hostBytes n)))

/-- In BUSY, a step whose next host transaction is a read or a write of DMEM executes the command as if the
transaction were not there: the transaction stays first in the list and what the host last read stays (20_memory.md
R93, R96; 70_reset_and_hazards.md R362). That the transactions after it wait with it, a reset or a poll too, is the
model's choice (log 21), as is the list (log 9). -/
def Obligations.HostAccessWaitsWhileBusy : Prop :=
  ∀ (s t : State) (q : HostTx) (rest : List HostTx), s.run = .busy → s.host = q :: rest →
  (∃ a n, q = .read a n ∨ ∃ v, q = .write a n v) → step s = .next t →
  t.host = s.host ∧ t.hostData = s.hostData ∧
    step { s with host := [] } = .next { t with host := [] }

/-- A CMD write: in IDLE it is accepted and the run state becomes BUSY; in BUSY the first one waits; a second one
leaves one of the two waiting; one that waits is accepted in IDLE and dropped in FAULT (10_state.md R53; 20_memory.md
R96; 70_reset_and_hazards.md R361). The model's choices: that the command does not run in the step of a CMD write
(logs 9, 10), that a write which waits goes before the host's next transaction and has a step of its own (log 11), and
that which of two is kept is a free value (log 11). -/
def Obligations.CommandWritesByRunState : Prop :=
  ∀ (s : State) (w : Word) (rest : List HostTx), buildLegal s.build = true →
  (s.run = .idle → s.waiting = none → s.host = .issue w :: rest →
    step s = .next { s with run := .busy, cmd := w, host := rest }) ∧
  (s.run = .busy → s.waiting = none → s.host = .issue w :: rest →
    step s = .next { s with waiting := some w, host := rest }) ∧
  (∀ v, s.run = .busy → s.waiting = some v → s.host = .issue w :: rest →
    ∃ t, step s = .next t ∧ (t.waiting = some v ∨ t.waiting = some w) ∧
      t = { s with waiting := t.waiting, host := rest, free := t.free }) ∧
  (∀ v, s.run = .idle → s.waiting = some v →
    step s = .next { s with run := .busy, cmd := v, waiting := none }) ∧
  (∀ v, s.run = .fault → s.waiting = some v → step s = .next { s with waiting := none })

/-- CMD reads 0; STATUS is 0, 1 or 2 in IDLE, BUSY and FAULT; CAUSE holds its code in bits 3:0 and zeros above; FINFO
and FCMD are whole words; CFG has FMT64 in bit 0, NCH - 1 in bits 7:4, SVFFB in bit 8 and zeros elsewhere, for a build
of 1 to 16 channels; and a step that reads one in any run state returns it and changes nothing else (10_state.md R52,
R53; 20_memory.md R96). The list of transactions (log 9), that in IDLE and FAULT a CMD write which waits goes first
(log 11), and that what a read returned stands in the state (log 12) are the model's choices. -/
def Obligations.SystemRegisterValues : Prop :=
  (∀ s : State, s.readSys .cmd = 0 ∧
    (s.run = .idle → s.readSys .status = 0) ∧ (s.run = .busy → s.readSys .status = 1) ∧
    (s.run = .fault → s.readSys .status = 2) ∧ (s.readSys .cause).toNat = s.cause.toNat ∧
    s.readSys .finfo = s.finfo ∧ s.readSys .fcmd = s.fcmd) ∧
  (∀ s : State, 1 ≤ s.build.nch → s.build.nch ≤ 16 →
    (s.readSys .cfg).toNat =
      (if s.build.fmt = .b64 then 1 else 0) + 16 * (s.build.nch - 1) + (if s.build.svfFb = .lPrev then 256 else 0)) ∧
  ∀ (s : State) (g : SysReg) (rest : List HostTx), buildLegal s.build = true → s.host = .readSys g :: rest →
    (s.run = .busy ∨ s.waiting = none) →
    step s = .next { s with host := rest, hostData := (s.readSys g).setWidth 64 }

/-- irq is high exactly when bit 1 of STATUS is 1, in every state, and a step that takes it from high to low is a
reset of the host (60_exceptions.md R322, R323). That no CMD write waits when the reset is taken, since one that waits
is dropped in a step before it, is the model's choice (log 11), as is the host's list of transactions (log 9). -/
def Obligations.IrqIsTheFaultBit : Prop :=
  (∀ s : State, s.irq = (s.readSys .status).getLsbD 1) ∧
  ∀ s t : State, step s = .next t → s.irq = true → t.irq = false → s.waiting = none ∧ s.host.head? = some .reset

/-- NOP completes and leaves the whole state as it was; the word 0x00000000 decodes to it, and any other word with
opcode 0x00 is illegal (40_data_movement.md R140). -/
def Obligations.NopChangesNothing : Prop :=
  (∀ s : State, exec .nop s = .next s) ∧ decode 0x00000000#32 = .ok .nop ∧
  ∀ w : Word, w.toNat / 2 ^ 24 = 0 → w ≠ 0 → ∃ why, decode w = .error why

/-- SETR leaves imm16 zero-extended, SETRH imm16 above the old low half, ADDRI the sum with the sign-extended
immediate modulo 2^32, each in r[d] and nowhere else, for every register pair; the effective address of LD and ST is
the same sum (40_data_movement.md R141 to R143, R148; 20_memory.md R87). -/
def Obligations.IntegerCommandResults : Prop :=
  ∀ (s : State) (rd ra : RReg) (imm : BitVec 16),
  (∃ t, exec (.setr rd imm) s = .next t ∧ SameButR s t ∧ OtherR rd s t ∧ (t.getR rd).toNat = imm.toNat) ∧
  (∃ t, exec (.setrh rd imm) s = .next t ∧ SameButR s t ∧ OtherR rd s t ∧
    (t.getR rd).toNat = imm.toNat * 65536 + (s.getR rd).toNat % 65536) ∧
  (∃ t, exec (.addri rd ra imm) s = .next t ∧ SameButR s t ∧ OtherR rd s t ∧
    ((t.getR rd).toNat : ℤ) = (((s.getR ra).toNat : ℤ) + imm.toInt) % 4294967296) ∧
  ((s.addOffset ra imm).toNat : ℤ) = (((s.getR ra).toNat : ℤ) + imm.toInt) % 4294967296

/-- Executing the expansion of LI rd, imm32 leaves imm32 in r[d], of MOVR rd, ra the value of r[a], of NEXT rd the old
value plus EB modulo 2^32; nothing else changes (30_encoding.md R121). -/
def Obligations.PseudoInstructionEffects : Prop :=
  ∀ (s : State) (rd ra : RReg) (imm : Word),
  (∃ i j t u, pseudoLi rd imm = [i, j] ∧ i = .setr rd (imm.extractLsb' 0 16) ∧ j = .setrh rd (imm.extractLsb' 16 16) ∧
    exec i s = .next t ∧ exec j t = .next u ∧ SameButR s u ∧ OtherR rd s u ∧ u.getR rd = imm) ∧
  (∃ t, pseudoMovr rd ra = [.addri rd ra 0] ∧ exec (.addri rd ra 0) s = .next t ∧ SameButR s t ∧ OtherR rd s t ∧
    t.getR rd = s.getR ra) ∧
  (∃ i t, pseudoNext s.fmt rd = [i] ∧ i = .addri rd rd (BitVec.ofNat 16 (eb s.fmt)) ∧ exec i s = .next t ∧
    SameButR s t ∧ OtherR rd s t ∧ (t.getR rd).toNat = ((s.getR rd).toNat + eb s.fmt) % 2 ^ 32)

/-- At an aligned address inside DMEM, LD leaves in x[d] the element whose byte k is the byte at the effective address
plus k, with nothing above it; no other register and no byte of memory changes (40_data_movement.md R144). -/
def Obligations.LoadReadsOneElement : Prop :=
  ∀ (s : State) (xd : XReg) (ra : RReg) (imm : BitVec 16), RegionOk s.build (s.addOffset ra imm) 1 →
  ∃ t, exec (.ld xd ra imm) s = .next t ∧ SameButX s t ∧ OtherX xd s t ∧
    (∀ k, k < eb s.fmt →
      (t.getX xd).extractLsb' (8 * k) 8 = readByte s.dmem ((s.addOffset ra imm).toNat + k)) ∧
    (t.getX xd).toNat < 2 ^ flen s.fmt

/-- At an aligned address inside DMEM, ST stores byte k of the data register at the effective address plus k for k
below EB, leaves every byte outside those EB bytes as it was, and changes no register; DMEM is in canonical form
(40_data_movement.md R145). -/
def Obligations.StoreWritesOneElement : Prop :=
  ∀ (s : State) (xs : XReg) (ra : RReg) (imm : BitVec 16), DmemCanonical s → RegionOk s.build (s.addOffset ra imm) 1 →
  ∃ t, exec (.st xs ra imm) s = .next t ∧ SameButDmem s t ∧
    (∀ k, k < eb s.fmt →
      readByte t.dmem ((s.addOffset ra imm).toNat + k) = (s.getX xs).extractLsb' (8 * k) 8) ∧
    BytesOutside (s.addOffset ra imm).toNat (eb s.fmt) s.dmem t.dmem

/-- MOV copies x[a]; MFC copies the filter register it names, that of its channel when the register is one per channel
and the build has the channel; nothing else changes. With a channel the build does not have, MFC of a per-channel
register raises E_CHANNEL (code 2) with the index (R146, R147). -/
def Obligations.MoveCommandsCopyPatterns : Prop :=
  ∀ (s : State) (xd xs : XReg) (c : Chan),
  SetsX (.mov xd xs) s xd (s.getX xs) ∧
  SetsX (.mfc xd .b0 0) s xd s.bq.b0 ∧ SetsX (.mfc xd .b1 0) s xd s.bq.b1 ∧ SetsX (.mfc xd .b2 0) s xd s.bq.b2 ∧
  SetsX (.mfc xd .a1 0) s xd s.bq.a1 ∧ SetsX (.mfc xd .a2 0) s xd s.bq.a2 ∧
  SetsX (.mfc xd .f1 0) s xd s.svf.f1 ∧ SetsX (.mfc xd .q1 0) s xd s.svf.q1 ∧ SetsX (.mfc xd .fs 0) s xd s.svf.fs ∧
  (c.val < s.build.nch →
    SetsX (.mfc xd .x1 c) s xd (s.getDelay c).x1 ∧ SetsX (.mfc xd .x2 c) s xd (s.getDelay c).x2 ∧
    SetsX (.mfc xd .y1 c) s xd (s.getDelay c).y1 ∧ SetsX (.mfc xd .y2 c) s xd (s.getDelay c).y2 ∧
    SetsX (.mfc xd .h c) s xd (s.getSvf c).h ∧ SetsX (.mfc xd .b c) s xd (s.getSvf c).b ∧
    SetsX (.mfc xd .l c) s xd (s.getSvf c).l) ∧
  (s.build.nch ≤ c.val → ∀ csr : Csr, csr.perChannel = true →
    FaultsWith (.mfc xd csr c) s 2 (BitVec.ofNat 32 c.val))

/-- On coefficient regions that pass their checks: POLY.HORNER leaves the loop of R161 from the highest power down
with two roundings a step, POLY.FMA2 the single fused c1·x + c0 of R162, POLY.RAT the quotient of two such loops
(R164), each of the coefficients in DMEM at the base registers; nothing else changes. -/
def Obligations.PolynomialResults : Prop :=
  ∀ (s : State) (xd xa : XReg) (rb rc : RReg) (n : BitVec 8), n ≠ 0 →
  (RegionOk s.build (s.getR rb) n.toNat →
    SetsX (.polyHorner xd xa rb n) s xd (hornerLoop s.fmt (coefficient s (s.getR rb)) n.toNat (s.getX xa))) ∧
  (RegionOk s.build (s.getR rb) 2 →
    SetsX (.polyFma2 xd xa rb) s xd
      (ffma s.fmt (coefficient s (s.getR rb) 1) (s.getX xa) (coefficient s (s.getR rb) 0))) ∧
  (RegionOk s.build (s.getR rb) n.toNat → RegionOk s.build (s.getR rc) n.toNat →
    SetsX (.polyRat xd xa rb rc n) s xd
      (fdiv s.fmt (hornerLoop s.fmt (coefficient s (s.getR rb)) n.toNat (s.getX xa))
        (hornerLoop s.fmt (coefficient s (s.getR rc)) n.toNat (s.getX xa))))

/-- On a region that passes its check POLY.ESTRIN leaves estrin of its coefficients in x[d] and changes nothing else;
estrin of one coefficient is that coefficient, and estrin of two or more is estrin of the pairs c[2i] + c[2i+1]·x, an
odd sequence padded with +0, at x·x (41_polynomial.md R163). -/
def Obligations.EstrinResults : Prop :=
  (∀ (s : State) (xd xa : XReg) (rb : RReg) (n : BitVec 8), n ≠ 0 → RegionOk s.build (s.getR rb) n.toNat →
    SetsX (.polyEstrin xd xa rb n) s xd
      (estrin s.fmt ((List.range n.toNat).map (coefficient s (s.getR rb))) (s.getX xa))) ∧
  (∀ (f : Fmt) (c x : Pat), estrin f [c] x = c) ∧
  ∀ (f : Fmt) (cs : List Pat) (x : Pat), 2 ≤ cs.length →
    estrin f cs x =
      estrin f
        ((List.range ((cs.length + 1) / 2)).map fun i =>
          fadd f (cs.getD (2 * i) (zero f)) (fmul f (cs.getD (2 * i + 1) (zero f)) x))
        (fmul f x x)

/-- At a base (for LD and ST the effective address) that is not a multiple of EB, LD, ST and every POLY command raise
E_ALIGN (code 4) with that base; at an aligned one whose region does not lie inside DMEM, E_ACCESS (code 5) with it;
POLY.RAT checks the denominator's base only when the numerator's passes; nothing else changes (R88, R144, R145, R160,
R164, R319). -/
def Obligations.ElementRegionFaults : Prop :=
  ∀ (s : State) (x xd xa : XReg) (ra rb rc : RReg) (imm : BitVec 16) (n : BitVec 8), n ≠ 0 →
  let bad := fun (i : Instr) (base : Word) (count : Nat) =>
    (base.toNat % eb s.fmt ≠ 0 → FaultsWith i s 4 base) ∧
      (base.toNat % eb s.fmt = 0 → s.build.memBytes < base.toNat + count * eb s.fmt → FaultsWith i s 5 base)
  bad (.ld x ra imm) (s.addOffset ra imm) 1 ∧ bad (.st x ra imm) (s.addOffset ra imm) 1 ∧
  bad (.polyHorner xd xa rb n) (s.getR rb) n.toNat ∧ bad (.polyFma2 xd xa rb) (s.getR rb) 2 ∧
  bad (.polyEstrin xd xa rb n) (s.getR rb) n.toNat ∧ bad (.polyRat xd xa rb rc n) (s.getR rb) n.toNat ∧
  (RegionOk s.build (s.getR rb) n.toNat → bad (.polyRat xd xa rb rc n) (s.getR rc) n.toNat)

/-- For x a zero of either sign and all coefficients finite, horner, estrin and the two-term fused form return the
pattern of the constant term, except that a zero may come out with the other sign (41_polynomial.md R165). -/
def Obligations.EvaluationAtZeroGivesTheConstantTerm : Prop :=
  ∀ (f : Fmt) (x c : Pat) (cs : List Pat), isZero f x = true → fits f c = true → isFinite f c = true →
  (∀ d ∈ cs, isFinite f d = true) →
  (horner f (c :: cs) x = c ∨ (isZero f c = true ∧ isZero f (horner f (c :: cs) x) = true)) ∧
  (estrin f (c :: cs) x = c ∨ (isZero f c = true ∧ isZero f (estrin f (c :: cs) x) = true)) ∧
  ∀ c1, isFinite f c1 = true → ffma f c1 x c = c ∨ (isZero f c = true ∧ isZero f (ffma f c1 x c) = true)

/-- SIN.REF, COS.REF, TAN.REF, TANH.REF and LOG2.REF leave the build's reference function of x[a] in x[d], SQRT.REF
the IEEE square root, and change nothing else; no operand faults (R180, R186, R189, R193, R196, R198, R202). In every
build with EXCFG's choice of reference functions, whatever its format: a NaN gives CNAN; a zero gives itself in sin,
tan and tanh, 1.0 in cos and -inf in log2; an infinity gives CNAN in sin, cos and tan and 1.0 with its sign in tanh;
log2 of a negative value or of -inf is CNAN, of +inf is +inf, of 1.0 is +0 (R182). -/
def Obligations.ReferenceVariantResults : Prop :=
  (∀ (s : State) (xd xa : XReg),
  SetsX (.sinRef xd xa) s xd (refApply s.build .sin (s.getX xa)) ∧
  SetsX (.cosRef xd xa) s xd (refApply s.build .cos (s.getX xa)) ∧
  SetsX (.tanRef xd xa) s xd (refApply s.build .tan (s.getX xa)) ∧
  SetsX (.tanhRef xd xa) s xd (refApply s.build .tanh (s.getX xa)) ∧
  SetsX (.log2Ref xd xa) s xd (refApply s.build .log2 (s.getX xa)) ∧
  SetsX (.sqrtRef xd xa) s xd (fsqrt s.fmt (s.getX xa))) ∧
  ∀ b : Build, b.refs = .nearest →
    (∀ fn x, isNan b.fmt x = true → refApply b fn x = cnan b.fmt) ∧
    (∀ n, refApply b .sin (pack b.fmt n 0) = pack b.fmt n 0 ∧ refApply b .tan (pack b.fmt n 0) = pack b.fmt n 0 ∧
      refApply b .tanh (pack b.fmt n 0) = pack b.fmt n 0 ∧ refApply b .cos (pack b.fmt n 0) = one b.fmt ∧
      refApply b .log2 (pack b.fmt n 0) = infPat b.fmt true) ∧
    (∀ n, refApply b .sin (infPat b.fmt n) = cnan b.fmt ∧ refApply b .cos (infPat b.fmt n) = cnan b.fmt ∧
      refApply b .tan (infPat b.fmt n) = cnan b.fmt ∧
      refApply b .tanh (infPat b.fmt n) = (if n then fneg b.fmt (one b.fmt) else one b.fmt) ∧
      refApply b .log2 (infPat b.fmt n) = (if n then cnan b.fmt else infPat b.fmt false)) ∧
    (∀ x r, realOf b.fmt x = some r → r < 0 → refApply b .log2 x = cnan b.fmt) ∧
    refApply b .log2 (one b.fmt) = zero b.fmt

/-- SIN, TAN (FAST, FASTER), TANH.FAST, LOG2.FAST and SQRT.FAST leave the quotient of the Horner sums of their table
at x[a], COS.FAST and COS.FASTER that of the sine's table at COSRED(x[a]), in x[d], and change nothing else (R180,
R185, R187, R188, R191, R192, R194, R195, R197, R199, R203). COSRED(x) is, step by step, the remainder of x by TWO_PI,
moved by TWO_PI when it lies above PI or below -PI, and HALF_PI minus its magnitude, with the constants' patterns of
R215 (R190). -/
def Obligations.FastVariantResults : Prop :=
  (∀ (s : State) (xd xa : XReg),
  SetsX (.sinFast xd xa) s xd (fdiv s.fmt (horner s.fmt s.build.tables.sinFast.num (s.getX xa))
    (horner s.fmt s.build.tables.sinFast.den (s.getX xa))) ∧
  SetsX (.sinFaster xd xa) s xd (fdiv s.fmt (horner s.fmt s.build.tables.sinFaster.num (s.getX xa))
    (horner s.fmt s.build.tables.sinFaster.den (s.getX xa))) ∧
  SetsX (.tanFast xd xa) s xd (fdiv s.fmt (horner s.fmt s.build.tables.tanFast.num (s.getX xa))
    (horner s.fmt s.build.tables.tanFast.den (s.getX xa))) ∧
  SetsX (.tanFaster xd xa) s xd (fdiv s.fmt (horner s.fmt s.build.tables.tanFaster.num (s.getX xa))
    (horner s.fmt s.build.tables.tanFaster.den (s.getX xa))) ∧
  SetsX (.tanhFast xd xa) s xd (fdiv s.fmt (horner s.fmt s.build.tables.tanhFast.num (s.getX xa))
    (horner s.fmt s.build.tables.tanhFast.den (s.getX xa))) ∧
  SetsX (.log2Fast xd xa) s xd (fdiv s.fmt (horner s.fmt s.build.tables.log2Fast.num (s.getX xa))
    (horner s.fmt s.build.tables.log2Fast.den (s.getX xa))) ∧
  SetsX (.sqrtFast xd xa) s xd (fdiv s.fmt (horner s.fmt s.build.tables.sqrtFast.num (s.getX xa))
    (horner s.fmt s.build.tables.sqrtFast.den (s.getX xa))) ∧
  SetsX (.cosFast xd xa) s xd (fdiv s.fmt (horner s.fmt s.build.tables.sinFast.num (cosRed s.fmt (s.getX xa)))
    (horner s.fmt s.build.tables.sinFast.den (cosRed s.fmt (s.getX xa)))) ∧
  SetsX (.cosFaster xd xa) s xd (fdiv s.fmt (horner s.fmt s.build.tables.sinFaster.num (cosRed s.fmt (s.getX xa)))
    (horner s.fmt s.build.tables.sinFaster.den (cosRed s.fmt (s.getX xa))))) ∧
  ∀ (f : Fmt) (x : Pat),
    let pick := fun (p q : Pat) => match f with
      | .b32 => p
      | .b64 => q
    let pi := pick 0x40490FDB 0x400921FB54442D18
    let twoPi := pick 0x40C90FDB 0x401921FB54442D18
    let halfPi := pick 0x3FC90FDB 0x3FF921FB54442D18
    let t := ffmod f x twoPi
    (flt f pi t = true → cosRed f x = fsub f halfPi (fabs f (fsub f t twoPi))) ∧
    (flt f pi t = false → flt f t (fneg f pi) = true → cosRed f x = fsub f halfPi (fabs f (fadd f t twoPi))) ∧
    (flt f pi t = false → flt f t (fneg f pi) = false → cosRed f x = fsub f halfPi (fabs f t))

/-- For every finite operand the reduced argument of COS.FAST and COS.FASTER is a finite value in [HALF_PI - PI,
HALF_PI] of the FMT constants; an infinite or NaN operand gives CNAN (42_approximation.md R190). -/
def Obligations.CosineReductionBringsIntoRange : Prop :=
  ∀ (f : Fmt) (x : Pat),
  (isFinite f x = true → isFinite f (cosRed f x) = true ∧ fle f (fsub f (halfPiC f) (piC f)) (cosRed f x) = true ∧
    fle f (cosRed f x) (halfPiC f) = true) ∧
  (isFinite f x = false → cosRed f x = cnan f)

/-- LOG2.BIT leaves in x[d] the binary32 sum of the exponent field minus 127 and the quotient of the LOG2B Horner sums
at the mantissa value {0, 0x7F, M}, where E and M are the fields of x[a], narrowed to binary32 and the result widened
in B64; it changes nothing else, and an operand and its negative give the same result (42_approximation.md R200). -/
def Obligations.BitManipulationLogarithm : Prop :=
  (∀ (s : State) (xd xa : XReg) (v : Pat), v = log2Operand s.fmt (s.getX xa) →
    SetsX (.log2Bit xd xa) s xd
      ((fun y => match s.fmt with
        | .b32 => y
        | .b64 => widen64 y)
        (fadd .b32 (i2f32 (((v.extractLsb' 23 8).toNat : ℤ) - 127))
          (fdiv .b32
            (horner .b32 s.build.tables.log2b.num (0x3F800000#64 ||| (v.extractLsb' 0 23).setWidth 64))
            (horner .b32 s.build.tables.log2b.den (0x3F800000#64 ||| (v.extractLsb' 0 23).setWidth 64)))))) ∧
  ∀ (f : Fmt) (t : Table) (x : Pat), log2BitFn f t (flipSign f x) = log2BitFn f t x

/-- MIN takes x[b] only when x[b] < x[a], MAX only when x[a] < x[b]; CLIP tests the low bound first; WITHIN writes 1
when both closed comparisons hold and 0 otherwise, all 32 bits of r[d]; nothing else changes (R210 to R213). -/
def Obligations.SelectionResults : Prop :=
  ∀ (s : State) (xd xa xb xc : XReg) (rd : RReg),
  SetsX (.fmin xd xa xb) s xd (if flt s.fmt (s.getX xb) (s.getX xa) = true then s.getX xb else s.getX xa) ∧
  SetsX (.fmax xd xa xb) s xd (if flt s.fmt (s.getX xa) (s.getX xb) = true then s.getX xb else s.getX xa) ∧
  SetsX (.clip xd xa xb xc) s xd
    (if flt s.fmt (s.getX xa) (s.getX xb) = true then s.getX xb
      else if flt s.fmt (s.getX xc) (s.getX xa) = true then s.getX xc else s.getX xa) ∧
  SetsR (.within rd xa xb xc) s rd
    (if fle s.fmt (s.getX xb) (s.getX xa) = true ∧ fle s.fmt (s.getX xa) (s.getX xc) = true then 1 else 0)

/-- CONST leaves in x[d] the pattern that R215 lists for its constant in the build's format and changes nothing else
(42_approximation.md R214, R215). -/
def Obligations.ConstantPatterns : Prop :=
  ∀ (s : State) (xd : XReg),
  (s.fmt = .b32 →
    SetsX (.const xd .pi) s xd 0x40490FDB ∧ SetsX (.const xd .twoPi) s xd 0x40C90FDB ∧
    SetsX (.const xd .halfPi) s xd 0x3FC90FDB ∧ SetsX (.const xd .negHalfPi) s xd 0xBFC90FDB ∧
    SetsX (.const xd .e) s xd 0x402DF854 ∧ SetsX (.const xd .sqrt2) s xd 0x3FB504F3) ∧
  (s.fmt = .b64 →
    SetsX (.const xd .pi) s xd 0x400921FB54442D18 ∧ SetsX (.const xd .twoPi) s xd 0x401921FB54442D18 ∧
    SetsX (.const xd .halfPi) s xd 0x3FF921FB54442D18 ∧ SetsX (.const xd .negHalfPi) s xd 0xBFF921FB54442D18 ∧
    SetsX (.const xd .e) s xd 0x4005BF0A8B145769 ∧ SetsX (.const xd .sqrt2) s xd 0x3FF6A09E667F3BCD)

/-- flt holds exactly when neither operand is a NaN and the value of the first is below that of the second, infinities
beyond every finite value and the zeros equal; fle is the same with at most; fge is fle with its operands exchanged
(00_scope.md R13). -/
def Obligations.ComparisonsFollowTheValues : Prop :=
  ∀ (f : Fmt) (a b : Pat),
  (flt f a b = true ↔ ∃ p q, orderOf f a = some p ∧ orderOf f b = some q ∧ p < q) ∧
  (fle f a b = true ↔ ∃ p q, orderOf f a = some p ∧ orderOf f b = some q ∧ p ≤ q) ∧
  fge f a b = fle f b a ∧
  (isNan f a = true ∨ isNan f b = true → flt f a b = false ∧ fle f a b = false ∧ fge f a b = false)

/-- ffmod is CNAN when an operand is a NaN, the first is infinite or the second a zero; the first operand when that is
finite and the second infinite; otherwise exactly a - n·b with n the quotient cut toward zero, a zero result having
the sign of a (00_scope.md R14). The operands are patterns of the format. -/
def Obligations.RemainderIsExact : Prop :=
  ∀ (f : Fmt) (a b : Pat), fits f a = true → fits f b = true →
  (isNan f a = true ∨ isNan f b = true ∨ magOf f a = infMag f ∨ isZero f b = true → ffmod f a b = cnan f) ∧
  (isFinite f a = true → magOf f b = infMag f → ffmod f a b = a) ∧
  ∀ x y, realOf f a = some x → realOf f b = some y → y ≠ 0 →
    realOf f (ffmod f a b) = some (x - (truncate (x / y) : ℚ) * y) ∧ signOf f (ffmod f a b) = signOf f a

/-- On finite operands fadd, fsub, fmul, fdiv by a nonzero value, fsqrt of a value that is not negative and ffma each
give the exact real result rounded once to nearest, ties to even, an overflow being the infinity of its sign
(00_scope.md R9, R10). -/
def Obligations.ArithmeticRoundsToNearestEven : Prop :=
  ∀ (f : Fmt) (a b c : Pat) (x y z : ℚ), realOf f a = some x → realOf f b = some y → realOf f c = some z →
  RoundsTo f ((x + y : ℚ) : ℝ) (fadd f a b) ∧ RoundsTo f ((x - y : ℚ) : ℝ) (fsub f a b) ∧
  RoundsTo f ((x * y : ℚ) : ℝ) (fmul f a b) ∧ (y ≠ 0 → RoundsTo f ((x / y : ℚ) : ℝ) (fdiv f a b)) ∧
  (0 ≤ x → RoundsTo f (Real.sqrt (x : ℝ)) (fsqrt f a)) ∧
  RoundsTo f ((x * y + z : ℚ) : ℝ) (ffma f a b c)

/-- A NaN operand makes every rounding primitive CNAN; inf - inf, 0·inf, 0/0, inf/inf and the root of a negative value
or of -inf are CNAN; a nonzero value over a zero and every product with an infinity is the infinity of the combined
sign; infinities pass through sums; zero sums, products, quotients and roots take the sign the rule gives; fsub is
fadd with the second sign flipped; ffma with an infinite factor and a zero, or an infinite product and the opposite
infinity, is CNAN, and its exact zeros take R10's sign (00_scope.md R9, R10, R11). The booleans are signs, true for
minus. -/
def Obligations.SpecialOperandsFollowIeee : Prop :=
  ∀ (f : Fmt),
  (∀ a b c, isNan f a = true ∨ isNan f b = true →
    fadd f a b = cnan f ∧ fsub f a b = cnan f ∧ fmul f a b = cnan f ∧ fdiv f a b = cnan f ∧ ffmod f a b = cnan f ∧
      ffma f a b c = cnan f ∧ ffma f a c b = cnan f ∧ ffma f c a b = cnan f) ∧
  (∀ a, isNan f a = true → fsqrt f a = cnan f) ∧
  (∀ a b, fits f b = true → isNan f b = false → fsub f a b = fadd f a (b ^^^ BitVec.ofNat 64 (signWeight f))) ∧
  (∀ m n, fadd f (infPat f m) (infPat f n) = (if m = n then infPat f m else cnan f) ∧
    fsub f (infPat f m) (infPat f n) = (if m = n then cnan f else infPat f m) ∧
    fmul f (infPat f m) (infPat f n) = infPat f (m != n) ∧
    fmul f (infPat f m) (pack f n 0) = cnan f ∧ fmul f (pack f n 0) (infPat f m) = cnan f ∧
    fdiv f (pack f m 0) (pack f n 0) = cnan f ∧ fdiv f (infPat f m) (infPat f n) = cnan f ∧
    fadd f (pack f m 0) (pack f n 0) = pack f (m && n) 0 ∧ fsub f (pack f m 0) (pack f n 0) = pack f (m && !n) 0 ∧
    fsqrt f (pack f m 0) = pack f m 0 ∧ fsqrt f (infPat f m) = (if m then cnan f else infPat f false)) ∧
  (∀ a n, isFinite f a = true →
    fadd f a (infPat f n) = infPat f n ∧ fadd f (infPat f n) a = infPat f n ∧
    fsub f a (infPat f n) = infPat f (!n) ∧ fsub f (infPat f n) a = infPat f n ∧
    fdiv f a (infPat f n) = pack f (signOf f a != n) 0 ∧ fdiv f (infPat f n) a = infPat f (n != signOf f a) ∧
    fmul f a (pack f n 0) = pack f (signOf f a != n) 0 ∧ fmul f (pack f n 0) a = pack f (n != signOf f a) 0 ∧
    (isZero f a = false → fdiv f a (pack f n 0) = infPat f (signOf f a != n) ∧
      fmul f a (infPat f n) = infPat f (signOf f a != n) ∧ fmul f (infPat f n) a = infPat f (n != signOf f a) ∧
      (signOf f a = true → fsqrt f a = cnan f) ∧ fdiv f (pack f n 0) a = pack f (n != signOf f a) 0)) ∧
  (∀ a b x, realOf f a = some x → x ≠ 0 →
    (realOf f b = some (-x) → fadd f a b = pack f false 0) ∧ (realOf f b = some x → fsub f a b = pack f false 0)) ∧
  (∀ m n p c, ffma f (infPat f m) (pack f n 0) c = cnan f ∧ ffma f (pack f n 0) (infPat f m) c = cnan f ∧
    ffma f (infPat f m) (infPat f n) (infPat f p) = (if (m != n) = p then infPat f p else cnan f) ∧
    (isFinite f c = true → ffma f (infPat f m) (infPat f n) c = infPat f (m != n))) ∧
  (∀ a b c n p, isFinite f a = true →
    (isZero f a = false →
      ffma f (infPat f n) a (infPat f p) = (if (n != signOf f a) = p then infPat f p else cnan f) ∧
      ffma f a (infPat f n) (infPat f p) = (if (signOf f a != n) = p then infPat f p else cnan f) ∧
      (isFinite f c = true → ffma f (infPat f n) a c = infPat f (n != signOf f a) ∧
        ffma f a (infPat f n) c = infPat f (signOf f a != n))) ∧
    (isFinite f b = true → ffma f a b (infPat f p) = infPat f p) ∧
    ffma f a (pack f n 0) (pack f p 0) = pack f ((signOf f a != n) && p) 0 ∧
    ffma f (pack f n 0) a (pack f p 0) = pack f ((n != signOf f a) && p) 0) ∧
  ∀ a b c x y, realOf f a = some x → realOf f b = some y → x * y ≠ 0 → realOf f c = some (-(x * y)) →
    ffma f a b c = pack f false 0

/-- fneg and fabs are CNAN on a NaN and otherwise flip or clear the sign bit and keep every other bit; narrow32 is the
binary64 value rounded to binary32, an infinity an infinity; widen64 denotes the same value; a NaN gives CNAN in both
conversions; i2f32 of -127 to 128 denotes the integer (00_scope.md R11, R12, R15). The operands are patterns of their
format. -/
def Obligations.SignChangesAndConversions : Prop :=
  (∀ (f : Fmt) (a : Pat), fits f a = true →
    (isNan f a = true → fneg f a = cnan f ∧ fabs f a = cnan f) ∧
    (isNan f a = false → fneg f a = a ^^^ BitVec.ofNat 64 (signWeight f) ∧
      fabs f a = a &&& BitVec.ofNat 64 (signWeight f - 1))) ∧
  (∀ (a : Pat) (x : ℚ), realOf .b64 a = some x → RoundsTo .b32 (x : ℝ) (narrow32 a) ∧
    signOf .b32 (narrow32 a) = signOf .b64 a) ∧
  (∀ n, narrow32 (infPat .b64 n) = infPat .b32 n ∧ widen64 (infPat .b32 n) = infPat .b64 n) ∧
  (∀ (a : Pat) (x : ℚ), realOf .b32 a = some x → realOf .b64 (widen64 a) = some x ∧
    signOf .b64 (widen64 a) = signOf .b32 a) ∧
  (∀ a : Pat, (isNan .b64 a = true → narrow32 a = cnan .b32) ∧ (isNan .b32 a = true → widen64 a = cnan .b64)) ∧
  ∀ n : ℤ, -127 ≤ n → n ≤ 128 → realOf .b32 (i2f32 n) = some (n : ℚ)

/-- BQ.LP.D, BQ.HP.D, BQ.BP.D, BQ.BR.D and BQ.AP.D, with k = x[a] and q = x[b], write the five coefficients by the
formulas of BQ_DIRECT, each primitive rounded in the order written, and change nothing else: the delay state stays
(R232, R237, R240, R243, R246, R249). -/
def Obligations.BiquadDirectCoefficients : Prop :=
  ∀ (s : State) (xa xb : XReg),
  let f := s.fmt
  let k := s.getX xa
  let q := s.getX xb
  let kk := fmul f k k
  let kkq := fmul f kk q
  let den := fadd f (fadd f kkq k) q
  let na1 := fdiv f (fmul f (fmul f (two f) q) (fsub f kk (one f))) den
  let na2 := fdiv f (fadd f (fsub f kkq k) q) den
  SetsBq (.bqLpD xa xb) s
    { b0 := fdiv f kkq den, b1 := fmul f (two f) (fdiv f kkq den), b2 := fdiv f kkq den, a1 := na1, a2 := na2 } ∧
  SetsBq (.bqHpD xa xb) s
    { b0 := fdiv f q den, b1 := fneg f (fmul f (two f) (fdiv f q den)), b2 := fdiv f q den, a1 := na1, a2 := na2 } ∧
  SetsBq (.bqBpD xa xb) s
    { b0 := fdiv f k den, b1 := zero f, b2 := fneg f (fdiv f k den), a1 := na1, a2 := na2 } ∧
  SetsBq (.bqBrD xa xb) s
    { b0 := fdiv f (fmul f q (fadd f (one f) kk)) den, b1 := na1,
      b2 := fdiv f (fmul f q (fadd f (one f) kk)) den, a1 := na1, a2 := na2 } ∧
  SetsBq (.bqApD xa xb) s { b0 := na2, b1 := na1, b2 := one f, a1 := na1, a2 := na2 }

/-- The ten N and CS commands write the coefficients that BQ_DIRECT gives for their response at k = REF_TAN(PI·f),
where f is x[a], or for CS the rounded quotient x[a]/x[b]; the product and the quotient are rounded first; nothing
else changes (R233 to R249). -/
def Obligations.BiquadWrapperCoefficients : Prop :=
  ∀ (s : State) (xa xb xc : XReg),
  let kn := refApply s.build .tan (fmul s.fmt (piC s.fmt) (s.getX xa))
  let kc := refApply s.build .tan (fmul s.fmt (piC s.fmt) (fdiv s.fmt (s.getX xa) (s.getX xb)))
  SetsBq (.bqLpN xa xb) s (bqDirect s.fmt .lp kn (s.getX xb)) ∧
  SetsBq (.bqHpN xa xb) s (bqDirect s.fmt .hp kn (s.getX xb)) ∧
  SetsBq (.bqBpN xa xb) s (bqDirect s.fmt .bp kn (s.getX xb)) ∧
  SetsBq (.bqBrN xa xb) s (bqDirect s.fmt .br kn (s.getX xb)) ∧
  SetsBq (.bqApN xa xb) s (bqDirect s.fmt .ap kn (s.getX xb)) ∧
  SetsBq (.bqLpCs xa xb xc) s (bqDirect s.fmt .lp kc (s.getX xc)) ∧
  SetsBq (.bqHpCs xa xb xc) s (bqDirect s.fmt .hp kc (s.getX xc)) ∧
  SetsBq (.bqBpCs xa xb xc) s (bqDirect s.fmt .bp kc (s.getX xc)) ∧
  SetsBq (.bqBrCs xa xb xc) s (bqDirect s.fmt .br kc (s.getX xc)) ∧
  SetsBq (.bqApCs xa xb xc) s (bqDirect s.fmt .ap kc (s.getX xc))

/-- For a channel of the build, BQ.PROC leaves ((((b0·x0 + b1·x1) + b2·x2) - a1·y1) - a2·y2), each product and sum
rounded, in x[d], shifts the history of its channel by copying patterns, and changes no other register, channel or
byte (43_biquad.md R231, R250). -/
def Obligations.BiquadSampleResult : Prop :=
  ∀ (s : State) (xd xa : XReg) (c : Chan), c.val < s.build.nch →
  let f := s.fmt
  let x0 := s.getX xa
  let d := s.getDelay c
  let y0 := fsub f (fsub f (fadd f (fadd f (fmul f s.bq.b0 x0) (fmul f s.bq.b1 d.x1)) (fmul f s.bq.b2 d.x2))
    (fmul f s.bq.a1 d.y1)) (fmul f s.bq.a2 d.y2)
  ∃ t, exec (.bqProc xd xa c) s = .next t ∧ t = { s with x := t.x, bqd := t.bqd } ∧ OtherX xd s t ∧ OtherDelays c s t ∧
    t.getX xd = y0 ∧ t.getDelay c = { x1 := x0, x2 := d.x1, y1 := y0, y2 := d.y1 }

/-- For a channel of the build and a region that passes its check, BQ.BUF leaves in the buffer the outputs of the
recurrence on the buffer's elements in ascending order and in the channel's delay state what the last sample leaves;
every byte outside the buffer, every other channel and every register stays. A count of 0 changes nothing
(43_biquad.md R251). -/
def Obligations.BiquadBufferResult : Prop :=
  ∀ (s : State) (ra rb : RReg) (c : Chan), c.val < s.build.nch → DmemCanonical s →
  RegionOk s.build (s.getR ra) (s.getR rb).toNat →
  ∃ t, exec (.bqBuf ra rb c) s = .next t ∧ SameButDelayDmem s t ∧ OtherDelays c s t ∧
    BytesOutside (s.getR ra).toNat ((s.getR rb).toNat * eb s.fmt) s.dmem t.dmem ∧
    (elems s.fmt t.dmem (s.getR ra).toNat (s.getR rb).toNat, t.getDelay c) =
      bqSamples s.fmt s.bq (s.getDelay c) (elems s.fmt s.dmem (s.getR ra).toNat (s.getR rb).toNat)

/-- With a channel of the build, a count of at least 2 and regions that pass their checks (for BQ.OPT2 also disjoint),
BQ.OPT leaves in its buffer, and BQ.OPT2 in its output buffer, the outputs of the recurrence on the input elements in
order, and in the channel's delay state what the last sample leaves; every byte outside the written buffer, every
other channel and every register stays, so the input buffer of BQ.OPT2 does (43_biquad.md R252, R253). -/
def Obligations.BlockOptimizedResults : Prop :=
  ∀ (s : State) (rd ra rb : RReg) (c : Chan), c.val < s.build.nch → DmemCanonical s → 2 ≤ (s.getR rb).toNat →
  RegionOk s.build (s.getR ra) (s.getR rb).toNat →
  (∃ t, exec (.bqOpt ra rb c) s = .next t ∧ SameButDelayDmem s t ∧ OtherDelays c s t ∧
    BytesOutside (s.getR ra).toNat ((s.getR rb).toNat * eb s.fmt) s.dmem t.dmem ∧
    (elems s.fmt t.dmem (s.getR ra).toNat (s.getR rb).toNat, t.getDelay c) =
      bqSamples s.fmt s.bq (s.getDelay c) (elems s.fmt s.dmem (s.getR ra).toNat (s.getR rb).toNat)) ∧
  (RegionOk s.build (s.getR rd) (s.getR rb).toNat →
    Disjoint2 (s.getR ra) (s.getR rd) ((s.getR rb).toNat * eb s.fmt) →
    ∃ t, exec (.bqOpt2 rd ra rb c) s = .next t ∧ SameButDelayDmem s t ∧ OtherDelays c s t ∧
      BytesOutside (s.getR rd).toNat ((s.getR rb).toNat * eb s.fmt) s.dmem t.dmem ∧
      (elems s.fmt t.dmem (s.getR rd).toNat (s.getR rb).toNat, t.getDelay c) =
        bqSamples s.fmt s.bq (s.getDelay c) (elems s.fmt s.dmem (s.getR ra).toNat (s.getR rb).toNat))

/-- On every state with DMEM in canonical form and a count of at least 2, BQ.OPT and BQ.BUF have the same outcome,
faults included, and so have BQ.MOPT and BQ.MBUF; where BQ.OPT2 and BQ.BUF of its input both complete, the output
buffer of the one holds what the other leaves in place, and the delay states are equal; and so it is, in every
channel, for BQ.MOPT2 and BQ.MBUF of its inputs, when no two of all their buffers share a byte (43_biquad.md R257).
Where buffers of different channels overlap, one form may read what the other has not written. The tables may lie
anywhere. -/
def Obligations.OptimizedFormsEqualTheNaiveForms : Prop :=
  ∀ (s : State) (rd ra rb : RReg) (c : Chan), DmemCanonical s → 2 ≤ (s.getR rb).toNat →
  exec (.bqOpt ra rb c) s = exec (.bqBuf ra rb c) s ∧
  exec (.bqMopt ra rb) s = exec (.bqMbuf ra rb) s ∧
  (c.val < s.build.nch → RegionOk s.build (s.getR ra) (s.getR rb).toNat →
    RegionOk s.build (s.getR rd) (s.getR rb).toNat →
    Disjoint2 (s.getR ra) (s.getR rd) ((s.getR rb).toNat * eb s.fmt) →
    ∃ t u, exec (.bqOpt2 rd ra rb c) s = .next t ∧ exec (.bqBuf ra rb c) s = .next u ∧
      elems s.fmt t.dmem (s.getR rd).toNat (s.getR rb).toNat = elems s.fmt u.dmem (s.getR ra).toNat (s.getR rb).toNat ∧
      t.bqd = u.bqd) ∧
  (s.build.nch ≤ 16 → TableOk s.build (s.getR ra) → TableOk s.build (s.getR rd) →
    let inp := fun (e : Chan) => s.tableWord (s.getR ra) e.val
    let out := fun (e : Chan) => s.tableWord (s.getR rd) e.val
    let len := (s.getR rb).toNat * eb s.fmt
    (∀ e : Chan, e.val < s.build.nch →
      RegionOk s.build (inp e) (s.getR rb).toNat ∧ RegionOk s.build (out e) (s.getR rb).toNat) →
    (∀ e g : Chan, e.val < s.build.nch → g.val < s.build.nch →
      Disjoint2 (inp e) (out g) len ∧ (e ≠ g → Disjoint2 (inp e) (inp g) len ∧ Disjoint2 (out e) (out g) len)) →
    ∃ t u, exec (.bqMopt2 rd ra rb) s = .next t ∧ exec (.bqMbuf ra rb) s = .next u ∧ t.bqd = u.bqd ∧
      ∀ e : Chan, e.val < s.build.nch →
        elems s.fmt t.dmem (out e).toNat (s.getR rb).toNat = elems s.fmt u.dmem (inp e).toNat (s.getR rb).toNat)

/-- When their checks pass, BQ.MBUF, BQ.MOPT, BQ.MOPT2 and SVF.MBUF.HP, .BP, .LP give the state that their
single-channel form gives on channel 0, then 1, up to NCH-1, each on the buffer whose address the pointer table held
before the command, with the count of r[b]. The single-channel command is written here with its addresses in r0 and r2
and its count in r1, the registers being those of the machine before and after (R254 to R256, R294 to R296, R90). -/
def Obligations.MultiChannelFormsRunChannelByChannel : Prop :=
  ∀ (s : State) (rd ra rb : RReg), s.build.nch ≤ 16 → TableOk s.build (s.getR ra) →
  (∀ c : Chan, c.val < s.build.nch → RegionOk s.build (s.tableWord (s.getR ra) c.val) (s.getR rb).toNat) →
  let one := fun (u : State) (c : Chan) =>
    ((u.setR 0 (s.tableWord (s.getR ra) c.val)).setR 1 (s.getR rb)).setR 2 (s.tableWord (s.getR rd) c.val)
  let chain := fun (many : Instr) (single : Chan → Instr) =>
    ∃ u : Nat → State, u 0 = s ∧ exec many s = .next (u s.build.nch) ∧
      ∀ c : Chan, c.val < s.build.nch →
        (u (c.val + 1)).r = s.r ∧ exec (single c) (one (u c.val) c) = .next (one (u (c.val + 1)) c)
  chain (.bqMbuf ra rb) (.bqBuf 0 1) ∧ chain (.svfMbufHp ra rb) (.svfBufHp 0 1) ∧
  chain (.svfMbufBp ra rb) (.svfBufBp 0 1) ∧ chain (.svfMbufLp ra rb) (.svfBufLp 0 1) ∧
  (2 ≤ (s.getR rb).toNat →
    chain (.bqMopt ra rb) (.bqOpt 0 1) ∧
    (TableOk s.build (s.getR rd) →
      (∀ c : Chan, c.val < s.build.nch → RegionOk s.build (s.tableWord (s.getR rd) c.val) (s.getR rb).toNat ∧
        Disjoint2 (s.tableWord (s.getR ra) c.val) (s.tableWord (s.getR rd) c.val) ((s.getR rb).toNat * eb s.fmt)) →
      chain (.bqMopt2 rd ra rb) (.bqOpt2 2 0 1)))

/-- SVF.RESET leaves both coefficients and the state of every channel of the build +0 and x[a] in svf.fs; SVF.SETU
writes f1 = 2·REF_SIN(PI·(fc/fs)) and q1 = 1/Q; SVF.SETC does so and writes 1 to r[d] unless f1 ≥ 2 - q1, and then
writes 0 to r[d] and leaves the coefficients; nothing else changes (44_svf.md R281, R282, R284 to R286). -/
def Obligations.SvfResetAndCoefficientResults : Prop :=
  ∀ (s : State) (rd : RReg) (xa xb : XReg),
  let f := s.fmt
  let nf1 := fmul f (two f) (refApply s.build .sin (fmul f (piC f) (fdiv f (s.getX xa) s.svf.fs)))
  let nq1 := fdiv f (one f) (s.getX xb)
  (∃ t, exec (.svfReset xa) s = .next t ∧ t = { s with svf := t.svf, svfc := t.svfc } ∧
    t.svf = { f1 := zero f, q1 := zero f, fs := s.getX xa } ∧
    ∀ c : Chan, t.getSvf c = if c.val < s.build.nch then { h := zero f, b := zero f, l := zero f } else s.getSvf c) ∧
  (∃ t, exec (.svfSetu xa xb) s = .next t ∧ t = { s with svf := t.svf } ∧
    t.svf = { f1 := nf1, q1 := nq1, fs := s.svf.fs }) ∧
  (fge f nf1 (fsub f (two f) nq1) = true → SetsR (.svfSetc rd xa xb) s rd 0) ∧
  (fge f nf1 (fsub f (two f) nq1) = false →
    ∃ t, exec (.svfSetc rd xa xb) s = .next t ∧ t = { s with r := t.r, svf := t.svf } ∧ OtherR rd s t ∧ t.getR rd = 1 ∧
      t.svf = { f1 := nf1, q1 := nq1, fs := s.svf.fs })

/-- For a channel of the build, with h, b and l the new values by the recurrence for the build's SVF_FB: SVF.PROC.HP,
.BP and .LP leave h, b or l in x[d]; SVF.FRAME stores h, b and l as three consecutive elements at r[d] when that
region passes its check; each replaces the channel's three state values, and no other register, channel or byte
changes (44_svf.md R283, R287 to R290). -/
def Obligations.SvfSampleResults : Prop :=
  ∀ (s : State) (rd : RReg) (xd xa : XReg) (c : Chan), c.val < s.build.nch →
  let f := s.fmt
  let v := s.getSvf c
  let fb := match s.build.svfFb with
    | .hPrev => v.h
    | .lPrev => v.l
  let nh := fsub f (fsub f (s.getX xa) fb) (fmul f s.svf.q1 v.b)
  let nb := fadd f (fmul f s.svf.f1 nh) v.b
  let nl := fadd f (fmul f s.svf.f1 nb) v.l
  let sample := fun (i : Instr) (y : Pat) =>
    ∃ t, exec i s = .next t ∧ t = { s with x := t.x, svfc := t.svfc } ∧ OtherX xd s t ∧ OtherSvf c s t ∧ t.getX xd = y ∧
      t.getSvf c = { h := nh, b := nb, l := nl }
  sample (.svfProcHp xd xa c) nh ∧ sample (.svfProcBp xd xa c) nb ∧ sample (.svfProcLp xd xa c) nl ∧
  (DmemCanonical s → RegionOk s.build (s.getR rd) 3 →
    ∃ t, exec (.svfFrame rd xa c) s = .next t ∧ SameButSvfDmem s t ∧ OtherSvf c s t ∧
      t.getSvf c = { h := nh, b := nb, l := nl } ∧ elems f t.dmem (s.getR rd).toNat 3 = [nh, nb, nl] ∧
      BytesOutside (s.getR rd).toNat (3 * eb f) s.dmem t.dmem)

/-- For a channel of the build and a region that passes its check, SVF.BUF.HP, .BP and .LP leave in the buffer the
highpass, bandpass or lowpass outputs of the recurrence on the buffer's elements in ascending order and in the
channel's state what the last sample leaves; every byte outside the buffer, every other channel and every register
stays (44_svf.md R291 to R293). -/
def Obligations.SvfBufferResults : Prop :=
  ∀ (s : State) (ra rb : RReg) (c : Chan), c.val < s.build.nch → DmemCanonical s →
  RegionOk s.build (s.getR ra) (s.getR rb).toNat →
  let filtered := fun (i : Instr) (o : SvfOut) =>
    ∃ t, exec i s = .next t ∧ SameButSvfDmem s t ∧ OtherSvf c s t ∧
      BytesOutside (s.getR ra).toNat ((s.getR rb).toNat * eb s.fmt) s.dmem t.dmem ∧
      (elems s.fmt t.dmem (s.getR ra).toNat (s.getR rb).toNat, t.getSvf c) =
        svfSamples s.build s.svf o (s.getSvf c) (elems s.fmt s.dmem (s.getR ra).toNat (s.getR rb).toNat)
  filtered (.svfBufHp ra rb c) .hp ∧ filtered (.svfBufBp ra rb c) .bp ∧ filtered (.svfBufLp ra rb c) .lp

/-- State-variable filter: with finite f1 and q1 and the channel's state +0, an input +0 gives +0 on all three outputs
and leaves the state +0, for either SVF_FB (44_svf.md R297). Biquad: with finite coefficients and a history of zeros
of either sign, an input that is a zero gives a zero; its sign may be minus, so the model states no more than that
here (the rule's last sentence says +0). -/
def Obligations.SilenceStaysSilent : Prop :=
  (∀ (b : Build) (k : SvfCoef), isFinite b.fmt k.f1 = true → isFinite b.fmt k.q1 = true →
    svfStep b k { h := zero b.fmt, b := zero b.fmt, l := zero b.fmt } (zero b.fmt) =
      { h := zero b.fmt, b := zero b.fmt, l := zero b.fmt }) ∧
  ∀ (f : Fmt) (k : BqCoef) (x0 x1 x2 y1 y2 : Pat), isFinite f k.b0 = true → isFinite f k.b1 = true →
    isFinite f k.b2 = true → isFinite f k.a1 = true → isFinite f k.a2 = true → isZero f x0 = true → isZero f x1 = true →
    isZero f x2 = true → isZero f y1 = true → isZero f y2 = true → isZero f (bqF f k x0 x1 x2 y1 y2) = true

/-- Every per-channel processing command with a channel at or above NCH ends with E_CHANNEL (code 2) and the index,
whatever its other operands; BQ.OPT and BQ.OPT2 with a channel of the build, and BQ.MOPT and BQ.MOPT2, with a count of
0 or 1 end with E_COUNT (code 3) and the count, whatever their regions (60_exceptions.md R313, R314, R319). -/
def Obligations.ChannelAndCountFaults : Prop :=
  ∀ s : State,
  (∀ (i : Instr) (c : Chan), processingChannel i = some c → s.build.nch ≤ c.val →
    FaultsWith i s 2 (BitVec.ofNat 32 c.val)) ∧
  ∀ (rd ra rb : RReg) (c : Chan), (s.getR rb).toNat < 2 →
    (c.val < s.build.nch → FaultsWith (.bqOpt ra rb c) s 3 (s.getR rb) ∧ FaultsWith (.bqOpt2 rd ra rb c) s 3 (s.getR rb)) ∧
    FaultsWith (.bqMopt ra rb) s 3 (s.getR rb) ∧ FaultsWith (.bqMopt2 rd ra rb) s 3 (s.getR rb)

/-- With a channel of the build: a nonempty region that is misaligned raises E_ALIGN, an aligned one that does not lie
inside DMEM E_ACCESS, each with its base, in BQ.BUF, BQ.OPT (count at least 2), SVF.BUF and SVF.FRAME; in BQ.OPT2 the
input region is first, then the output region, then an overlap, E_OVERLAP with the output's base; the multi-channel
forms check their table before any buffer (R88, R317, R319). -/
def Obligations.BufferRegionFaults : Prop :=
  ∀ (s : State) (rd ra rb : RReg) (xa : XReg) (c : Chan), c.val < s.build.nch →
  let f := s.fmt
  let bad := fun (i : Instr) (base : Word) (len align : Nat) =>
    (base.toNat % align ≠ 0 → FaultsWith i s 4 base) ∧
      (base.toNat % align = 0 → s.build.memBytes < base.toNat + len → FaultsWith i s 5 base)
  let len := (s.getR rb).toNat * eb f
  (0 < (s.getR rb).toNat →
    bad (.bqBuf ra rb c) (s.getR ra) len (eb f) ∧ bad (.svfBufHp ra rb c) (s.getR ra) len (eb f) ∧
    bad (.svfBufBp ra rb c) (s.getR ra) len (eb f) ∧ bad (.svfBufLp ra rb c) (s.getR ra) len (eb f)) ∧
  bad (.svfFrame rd xa c) (s.getR rd) (3 * eb f) (eb f) ∧
  bad (.bqMbuf ra rb) (s.getR ra) (s.build.nch * 4) 4 ∧ bad (.svfMbufHp ra rb) (s.getR ra) (s.build.nch * 4) 4 ∧
  bad (.svfMbufBp ra rb) (s.getR ra) (s.build.nch * 4) 4 ∧ bad (.svfMbufLp ra rb) (s.getR ra) (s.build.nch * 4) 4 ∧
  (2 ≤ (s.getR rb).toNat →
    bad (.bqOpt ra rb c) (s.getR ra) len (eb f) ∧ bad (.bqOpt2 rd ra rb c) (s.getR ra) len (eb f) ∧
    bad (.bqMopt ra rb) (s.getR ra) (s.build.nch * 4) 4 ∧ bad (.bqMopt2 rd ra rb) (s.getR ra) (s.build.nch * 4) 4 ∧
    (RegionOk s.build (s.getR ra) (s.getR rb).toNat →
      bad (.bqOpt2 rd ra rb c) (s.getR rd) len (eb f) ∧
      (RegionOk s.build (s.getR rd) (s.getR rb).toNat → ¬Disjoint2 (s.getR ra) (s.getR rd) len →
        FaultsWith (.bqOpt2 rd ra rb c) s 6 (s.getR rd))))

/-- When the pointer table passes and the buffers of all lower channels pass, a misaligned or out-of-range buffer of
channel c raises E_ALIGN or E_ACCESS with its base in BQ.MBUF, SVF.MBUF and, for counts of at least 2, BQ.MOPT;
BQ.MOPT2 checks its output table after its input table, within a channel the input before the output, and an overlap,
E_OVERLAP with the output's base, only when every region passes (R254 to R256, R319). -/
def Obligations.MultiChannelFaults : Prop :=
  ∀ (s : State) (rd ra rb : RReg) (c : Chan), s.build.nch ≤ 16 → c.val < s.build.nch → TableOk s.build (s.getR ra) →
  let count := (s.getR rb).toNat
  let inp := fun (e : Chan) => s.tableWord (s.getR ra) e.val
  let out := fun (e : Chan) => s.tableWord (s.getR rd) e.val
  let bad := fun (i : Instr) (base : Word) (len align : Nat) =>
    (base.toNat % align ≠ 0 → FaultsWith i s 4 base) ∧
      (base.toNat % align = 0 → s.build.memBytes < base.toNat + len → FaultsWith i s 5 base)
  (0 < count → (∀ e : Chan, e.val < c.val → RegionOk s.build (inp e) count) →
    bad (.bqMbuf ra rb) (inp c) (count * eb s.fmt) (eb s.fmt) ∧
    bad (.svfMbufHp ra rb) (inp c) (count * eb s.fmt) (eb s.fmt) ∧
    bad (.svfMbufBp ra rb) (inp c) (count * eb s.fmt) (eb s.fmt) ∧
    bad (.svfMbufLp ra rb) (inp c) (count * eb s.fmt) (eb s.fmt) ∧
    (2 ≤ count → bad (.bqMopt ra rb) (inp c) (count * eb s.fmt) (eb s.fmt))) ∧
  (2 ≤ count →
    bad (.bqMopt2 rd ra rb) (s.getR rd) (s.build.nch * 4) 4 ∧
    (TableOk s.build (s.getR rd) →
      ((∀ e : Chan, e.val < c.val → RegionOk s.build (inp e) count ∧ RegionOk s.build (out e) count) →
        bad (.bqMopt2 rd ra rb) (inp c) (count * eb s.fmt) (eb s.fmt) ∧
        (RegionOk s.build (inp c) count → bad (.bqMopt2 rd ra rb) (out c) (count * eb s.fmt) (eb s.fmt))) ∧
      ((∀ e : Chan, e.val < s.build.nch → RegionOk s.build (inp e) count ∧ RegionOk s.build (out e) count) →
        (∀ e : Chan, e.val < c.val → Disjoint2 (inp e) (out e) (count * eb s.fmt)) →
        ¬Disjoint2 (inp c) (out c) (count * eb s.fmt) → FaultsWith (.bqMopt2 rd ra rb) s 6 (out c))))

/-- Replacing the biquad delay state and the state-variable state of another channel before a per-channel processing
command gives the same outcome with that channel's state replaced after it (60_exceptions.md R330). -/
def Obligations.ChannelsAreIndependent : Prop :=
  ∀ (i : Instr) (s t : State) (c e : Chan) (d : BqDelay) (v : SvfChan), processingChannel i = some c → e ≠ c →
  exec i s = .next t → exec i ((s.setDelay e d).setSvf e v) = .next ((t.setDelay e d).setSvf e v)

end Statements
end

