-- ==== Sys2Proof/Laws/State.lean ====
section
/-! SUPPORT. One lemma per field and update of State, and what each accessor reads after each update. -/

namespace Sys2Proof.Machine

/-! ## `setX` -/

@[simp] theorem State.setX_x (s : State) (i : XReg) (v : Pat) : (s.setX i v).x = s.x.set i v := rfl
@[simp] theorem State.setX_r (s : State) (i : XReg) (v : Pat) : (s.setX i v).r = s.r := rfl
@[simp] theorem State.setX_bq (s : State) (i : XReg) (v : Pat) : (s.setX i v).bq = s.bq := rfl
@[simp] theorem State.setX_bqd (s : State) (i : XReg) (v : Pat) : (s.setX i v).bqd = s.bqd := rfl
@[simp] theorem State.setX_svf (s : State) (i : XReg) (v : Pat) : (s.setX i v).svf = s.svf := rfl
@[simp] theorem State.setX_svfc (s : State) (i : XReg) (v : Pat) : (s.setX i v).svfc = s.svfc := rfl
@[simp] theorem State.setX_dmem (s : State) (i : XReg) (v : Pat) : (s.setX i v).dmem = s.dmem := rfl
@[simp] theorem State.setX_run (s : State) (i : XReg) (v : Pat) : (s.setX i v).run = s.run := rfl
@[simp] theorem State.setX_cause (s : State) (i : XReg) (v : Pat) : (s.setX i v).cause = s.cause := rfl
@[simp] theorem State.setX_finfo (s : State) (i : XReg) (v : Pat) : (s.setX i v).finfo = s.finfo := rfl
@[simp] theorem State.setX_fcmd (s : State) (i : XReg) (v : Pat) : (s.setX i v).fcmd = s.fcmd := rfl
@[simp] theorem State.setX_cmd (s : State) (i : XReg) (v : Pat) : (s.setX i v).cmd = s.cmd := rfl
@[simp] theorem State.setX_waiting (s : State) (i : XReg) (v : Pat) : (s.setX i v).waiting = s.waiting := rfl
@[simp] theorem State.setX_build (s : State) (i : XReg) (v : Pat) : (s.setX i v).build = s.build := rfl
@[simp] theorem State.setX_host (s : State) (i : XReg) (v : Pat) : (s.setX i v).host = s.host := rfl
@[simp] theorem State.setX_hostData (s : State) (i : XReg) (v : Pat) : (s.setX i v).hostData = s.hostData := rfl
@[simp] theorem State.setX_free (s : State) (i : XReg) (v : Pat) : (s.setX i v).free = s.free := rfl

/-! ## `setR` -/

@[simp] theorem State.setR_x (s : State) (i : RReg) (v : Word) : (s.setR i v).x = s.x := rfl
@[simp] theorem State.setR_r (s : State) (i : RReg) (v : Word) : (s.setR i v).r = s.r.set i v := rfl
@[simp] theorem State.setR_bq (s : State) (i : RReg) (v : Word) : (s.setR i v).bq = s.bq := rfl
@[simp] theorem State.setR_bqd (s : State) (i : RReg) (v : Word) : (s.setR i v).bqd = s.bqd := rfl
@[simp] theorem State.setR_svf (s : State) (i : RReg) (v : Word) : (s.setR i v).svf = s.svf := rfl
@[simp] theorem State.setR_svfc (s : State) (i : RReg) (v : Word) : (s.setR i v).svfc = s.svfc := rfl
@[simp] theorem State.setR_dmem (s : State) (i : RReg) (v : Word) : (s.setR i v).dmem = s.dmem := rfl
@[simp] theorem State.setR_run (s : State) (i : RReg) (v : Word) : (s.setR i v).run = s.run := rfl
@[simp] theorem State.setR_cause (s : State) (i : RReg) (v : Word) : (s.setR i v).cause = s.cause := rfl
@[simp] theorem State.setR_finfo (s : State) (i : RReg) (v : Word) : (s.setR i v).finfo = s.finfo := rfl
@[simp] theorem State.setR_fcmd (s : State) (i : RReg) (v : Word) : (s.setR i v).fcmd = s.fcmd := rfl
@[simp] theorem State.setR_cmd (s : State) (i : RReg) (v : Word) : (s.setR i v).cmd = s.cmd := rfl
@[simp] theorem State.setR_waiting (s : State) (i : RReg) (v : Word) : (s.setR i v).waiting = s.waiting := rfl
@[simp] theorem State.setR_build (s : State) (i : RReg) (v : Word) : (s.setR i v).build = s.build := rfl
@[simp] theorem State.setR_host (s : State) (i : RReg) (v : Word) : (s.setR i v).host = s.host := rfl
@[simp] theorem State.setR_hostData (s : State) (i : RReg) (v : Word) : (s.setR i v).hostData = s.hostData := rfl
@[simp] theorem State.setR_free (s : State) (i : RReg) (v : Word) : (s.setR i v).free = s.free := rfl

/-! ## `setDelay` -/

@[simp] theorem State.setDelay_x (s : State) (c : Chan) (d : BqDelay) : (s.setDelay c d).x = s.x := rfl
@[simp] theorem State.setDelay_r (s : State) (c : Chan) (d : BqDelay) : (s.setDelay c d).r = s.r := rfl
@[simp] theorem State.setDelay_bq (s : State) (c : Chan) (d : BqDelay) : (s.setDelay c d).bq = s.bq := rfl
@[simp] theorem State.setDelay_bqd (s : State) (c : Chan) (d : BqDelay) : (s.setDelay c d).bqd = s.bqd.set c d := rfl
@[simp] theorem State.setDelay_svf (s : State) (c : Chan) (d : BqDelay) : (s.setDelay c d).svf = s.svf := rfl
@[simp] theorem State.setDelay_svfc (s : State) (c : Chan) (d : BqDelay) : (s.setDelay c d).svfc = s.svfc := rfl
@[simp] theorem State.setDelay_dmem (s : State) (c : Chan) (d : BqDelay) : (s.setDelay c d).dmem = s.dmem := rfl
@[simp] theorem State.setDelay_run (s : State) (c : Chan) (d : BqDelay) : (s.setDelay c d).run = s.run := rfl
@[simp] theorem State.setDelay_cause (s : State) (c : Chan) (d : BqDelay) : (s.setDelay c d).cause = s.cause := rfl
@[simp] theorem State.setDelay_finfo (s : State) (c : Chan) (d : BqDelay) : (s.setDelay c d).finfo = s.finfo := rfl
@[simp] theorem State.setDelay_fcmd (s : State) (c : Chan) (d : BqDelay) : (s.setDelay c d).fcmd = s.fcmd := rfl
@[simp] theorem State.setDelay_cmd (s : State) (c : Chan) (d : BqDelay) : (s.setDelay c d).cmd = s.cmd := rfl
@[simp] theorem State.setDelay_waiting (s : State) (c : Chan) (d : BqDelay) : (s.setDelay c d).waiting = s.waiting := rfl
@[simp] theorem State.setDelay_build (s : State) (c : Chan) (d : BqDelay) : (s.setDelay c d).build = s.build := rfl
@[simp] theorem State.setDelay_host (s : State) (c : Chan) (d : BqDelay) : (s.setDelay c d).host = s.host := rfl
@[simp] theorem State.setDelay_hostData (s : State) (c : Chan) (d : BqDelay) : (s.setDelay c d).hostData = s.hostData := rfl
@[simp] theorem State.setDelay_free (s : State) (c : Chan) (d : BqDelay) : (s.setDelay c d).free = s.free := rfl

/-! ## `setSvf` -/

@[simp] theorem State.setSvf_x (s : State) (c : Chan) (v : SvfChan) : (s.setSvf c v).x = s.x := rfl
@[simp] theorem State.setSvf_r (s : State) (c : Chan) (v : SvfChan) : (s.setSvf c v).r = s.r := rfl
@[simp] theorem State.setSvf_bq (s : State) (c : Chan) (v : SvfChan) : (s.setSvf c v).bq = s.bq := rfl
@[simp] theorem State.setSvf_bqd (s : State) (c : Chan) (v : SvfChan) : (s.setSvf c v).bqd = s.bqd := rfl
@[simp] theorem State.setSvf_svf (s : State) (c : Chan) (v : SvfChan) : (s.setSvf c v).svf = s.svf := rfl
@[simp] theorem State.setSvf_svfc (s : State) (c : Chan) (v : SvfChan) : (s.setSvf c v).svfc = s.svfc.set c v := rfl
@[simp] theorem State.setSvf_dmem (s : State) (c : Chan) (v : SvfChan) : (s.setSvf c v).dmem = s.dmem := rfl
@[simp] theorem State.setSvf_run (s : State) (c : Chan) (v : SvfChan) : (s.setSvf c v).run = s.run := rfl
@[simp] theorem State.setSvf_cause (s : State) (c : Chan) (v : SvfChan) : (s.setSvf c v).cause = s.cause := rfl
@[simp] theorem State.setSvf_finfo (s : State) (c : Chan) (v : SvfChan) : (s.setSvf c v).finfo = s.finfo := rfl
@[simp] theorem State.setSvf_fcmd (s : State) (c : Chan) (v : SvfChan) : (s.setSvf c v).fcmd = s.fcmd := rfl
@[simp] theorem State.setSvf_cmd (s : State) (c : Chan) (v : SvfChan) : (s.setSvf c v).cmd = s.cmd := rfl
@[simp] theorem State.setSvf_waiting (s : State) (c : Chan) (v : SvfChan) : (s.setSvf c v).waiting = s.waiting := rfl
@[simp] theorem State.setSvf_build (s : State) (c : Chan) (v : SvfChan) : (s.setSvf c v).build = s.build := rfl
@[simp] theorem State.setSvf_host (s : State) (c : Chan) (v : SvfChan) : (s.setSvf c v).host = s.host := rfl
@[simp] theorem State.setSvf_hostData (s : State) (c : Chan) (v : SvfChan) : (s.setSvf c v).hostData = s.hostData := rfl
@[simp] theorem State.setSvf_free (s : State) (c : Chan) (v : SvfChan) : (s.setSvf c v).free = s.free := rfl

/-! ## `setBq` -/

@[simp] theorem State.setBq_x (s : State) (k : BqCoef) : (s.setBq k).x = s.x := rfl
@[simp] theorem State.setBq_r (s : State) (k : BqCoef) : (s.setBq k).r = s.r := rfl
@[simp] theorem State.setBq_bq (s : State) (k : BqCoef) : (s.setBq k).bq = k := rfl
@[simp] theorem State.setBq_bqd (s : State) (k : BqCoef) : (s.setBq k).bqd = s.bqd := rfl
@[simp] theorem State.setBq_svf (s : State) (k : BqCoef) : (s.setBq k).svf = s.svf := rfl
@[simp] theorem State.setBq_svfc (s : State) (k : BqCoef) : (s.setBq k).svfc = s.svfc := rfl
@[simp] theorem State.setBq_dmem (s : State) (k : BqCoef) : (s.setBq k).dmem = s.dmem := rfl
@[simp] theorem State.setBq_run (s : State) (k : BqCoef) : (s.setBq k).run = s.run := rfl
@[simp] theorem State.setBq_cause (s : State) (k : BqCoef) : (s.setBq k).cause = s.cause := rfl
@[simp] theorem State.setBq_finfo (s : State) (k : BqCoef) : (s.setBq k).finfo = s.finfo := rfl
@[simp] theorem State.setBq_fcmd (s : State) (k : BqCoef) : (s.setBq k).fcmd = s.fcmd := rfl
@[simp] theorem State.setBq_cmd (s : State) (k : BqCoef) : (s.setBq k).cmd = s.cmd := rfl
@[simp] theorem State.setBq_waiting (s : State) (k : BqCoef) : (s.setBq k).waiting = s.waiting := rfl
@[simp] theorem State.setBq_build (s : State) (k : BqCoef) : (s.setBq k).build = s.build := rfl
@[simp] theorem State.setBq_host (s : State) (k : BqCoef) : (s.setBq k).host = s.host := rfl
@[simp] theorem State.setBq_hostData (s : State) (k : BqCoef) : (s.setBq k).hostData = s.hostData := rfl
@[simp] theorem State.setBq_free (s : State) (k : BqCoef) : (s.setBq k).free = s.free := rfl

/-! ## `setSvfCoef` -/

@[simp] theorem State.setSvfCoef_x (s : State) (f1 q1 : Pat) : (s.setSvfCoef f1 q1).x = s.x := rfl
@[simp] theorem State.setSvfCoef_r (s : State) (f1 q1 : Pat) : (s.setSvfCoef f1 q1).r = s.r := rfl
@[simp] theorem State.setSvfCoef_bq (s : State) (f1 q1 : Pat) : (s.setSvfCoef f1 q1).bq = s.bq := rfl
@[simp] theorem State.setSvfCoef_bqd (s : State) (f1 q1 : Pat) : (s.setSvfCoef f1 q1).bqd = s.bqd := rfl
@[simp] theorem State.setSvfCoef_svf (s : State) (f1 q1 : Pat) : (s.setSvfCoef f1 q1).svf = { s.svf with f1 := f1, q1 := q1 } := rfl
@[simp] theorem State.setSvfCoef_svfc (s : State) (f1 q1 : Pat) : (s.setSvfCoef f1 q1).svfc = s.svfc := rfl
@[simp] theorem State.setSvfCoef_dmem (s : State) (f1 q1 : Pat) : (s.setSvfCoef f1 q1).dmem = s.dmem := rfl
@[simp] theorem State.setSvfCoef_run (s : State) (f1 q1 : Pat) : (s.setSvfCoef f1 q1).run = s.run := rfl
@[simp] theorem State.setSvfCoef_cause (s : State) (f1 q1 : Pat) : (s.setSvfCoef f1 q1).cause = s.cause := rfl
@[simp] theorem State.setSvfCoef_finfo (s : State) (f1 q1 : Pat) : (s.setSvfCoef f1 q1).finfo = s.finfo := rfl
@[simp] theorem State.setSvfCoef_fcmd (s : State) (f1 q1 : Pat) : (s.setSvfCoef f1 q1).fcmd = s.fcmd := rfl
@[simp] theorem State.setSvfCoef_cmd (s : State) (f1 q1 : Pat) : (s.setSvfCoef f1 q1).cmd = s.cmd := rfl
@[simp] theorem State.setSvfCoef_waiting (s : State) (f1 q1 : Pat) : (s.setSvfCoef f1 q1).waiting = s.waiting := rfl
@[simp] theorem State.setSvfCoef_build (s : State) (f1 q1 : Pat) : (s.setSvfCoef f1 q1).build = s.build := rfl
@[simp] theorem State.setSvfCoef_host (s : State) (f1 q1 : Pat) : (s.setSvfCoef f1 q1).host = s.host := rfl
@[simp] theorem State.setSvfCoef_hostData (s : State) (f1 q1 : Pat) : (s.setSvfCoef f1 q1).hostData = s.hostData := rfl
@[simp] theorem State.setSvfCoef_free (s : State) (f1 q1 : Pat) : (s.setSvfCoef f1 q1).free = s.free := rfl

/-! ## `setDmem` -/

@[simp] theorem State.setDmem_x (s : State) (m : Memory) : (s.setDmem m).x = s.x := rfl
@[simp] theorem State.setDmem_r (s : State) (m : Memory) : (s.setDmem m).r = s.r := rfl
@[simp] theorem State.setDmem_bq (s : State) (m : Memory) : (s.setDmem m).bq = s.bq := rfl
@[simp] theorem State.setDmem_bqd (s : State) (m : Memory) : (s.setDmem m).bqd = s.bqd := rfl
@[simp] theorem State.setDmem_svf (s : State) (m : Memory) : (s.setDmem m).svf = s.svf := rfl
@[simp] theorem State.setDmem_svfc (s : State) (m : Memory) : (s.setDmem m).svfc = s.svfc := rfl
@[simp] theorem State.setDmem_dmem (s : State) (m : Memory) : (s.setDmem m).dmem = m := rfl
@[simp] theorem State.setDmem_run (s : State) (m : Memory) : (s.setDmem m).run = s.run := rfl
@[simp] theorem State.setDmem_cause (s : State) (m : Memory) : (s.setDmem m).cause = s.cause := rfl
@[simp] theorem State.setDmem_finfo (s : State) (m : Memory) : (s.setDmem m).finfo = s.finfo := rfl
@[simp] theorem State.setDmem_fcmd (s : State) (m : Memory) : (s.setDmem m).fcmd = s.fcmd := rfl
@[simp] theorem State.setDmem_cmd (s : State) (m : Memory) : (s.setDmem m).cmd = s.cmd := rfl
@[simp] theorem State.setDmem_waiting (s : State) (m : Memory) : (s.setDmem m).waiting = s.waiting := rfl
@[simp] theorem State.setDmem_build (s : State) (m : Memory) : (s.setDmem m).build = s.build := rfl
@[simp] theorem State.setDmem_host (s : State) (m : Memory) : (s.setDmem m).host = s.host := rfl
@[simp] theorem State.setDmem_hostData (s : State) (m : Memory) : (s.setDmem m).hostData = s.hostData := rfl
@[simp] theorem State.setDmem_free (s : State) (m : Memory) : (s.setDmem m).free = s.free := rfl

/-! ## `raise` -/

@[simp] theorem State.raise_x (s : State) (e : Raised) : (s.raise e).x = s.x := rfl
@[simp] theorem State.raise_r (s : State) (e : Raised) : (s.raise e).r = s.r := rfl
@[simp] theorem State.raise_bq (s : State) (e : Raised) : (s.raise e).bq = s.bq := rfl
@[simp] theorem State.raise_bqd (s : State) (e : Raised) : (s.raise e).bqd = s.bqd := rfl
@[simp] theorem State.raise_svf (s : State) (e : Raised) : (s.raise e).svf = s.svf := rfl
@[simp] theorem State.raise_svfc (s : State) (e : Raised) : (s.raise e).svfc = s.svfc := rfl
@[simp] theorem State.raise_dmem (s : State) (e : Raised) : (s.raise e).dmem = s.dmem := rfl
@[simp] theorem State.raise_run (s : State) (e : Raised) : (s.raise e).run = .fault := rfl
@[simp] theorem State.raise_cause (s : State) (e : Raised) : (s.raise e).cause = causeCode e.cause := rfl
@[simp] theorem State.raise_finfo (s : State) (e : Raised) : (s.raise e).finfo = e.info := rfl
@[simp] theorem State.raise_fcmd (s : State) (e : Raised) : (s.raise e).fcmd = s.cmd := rfl
@[simp] theorem State.raise_cmd (s : State) (e : Raised) : (s.raise e).cmd = s.cmd := rfl
@[simp] theorem State.raise_waiting (s : State) (e : Raised) : (s.raise e).waiting = s.waiting := rfl
@[simp] theorem State.raise_build (s : State) (e : Raised) : (s.raise e).build = s.build := rfl
@[simp] theorem State.raise_host (s : State) (e : Raised) : (s.raise e).host = s.host := rfl
@[simp] theorem State.raise_hostData (s : State) (e : Raised) : (s.raise e).hostData = s.hostData := rfl
@[simp] theorem State.raise_free (s : State) (e : Raised) : (s.raise e).free = s.free := rfl

/-! ## `accept` -/

@[simp] theorem State.accept_x (s : State) (w : Word) : (s.accept w).x = s.x := rfl
@[simp] theorem State.accept_r (s : State) (w : Word) : (s.accept w).r = s.r := rfl
@[simp] theorem State.accept_bq (s : State) (w : Word) : (s.accept w).bq = s.bq := rfl
@[simp] theorem State.accept_bqd (s : State) (w : Word) : (s.accept w).bqd = s.bqd := rfl
@[simp] theorem State.accept_svf (s : State) (w : Word) : (s.accept w).svf = s.svf := rfl
@[simp] theorem State.accept_svfc (s : State) (w : Word) : (s.accept w).svfc = s.svfc := rfl
@[simp] theorem State.accept_dmem (s : State) (w : Word) : (s.accept w).dmem = s.dmem := rfl
@[simp] theorem State.accept_run (s : State) (w : Word) : (s.accept w).run = .busy := rfl
@[simp] theorem State.accept_cause (s : State) (w : Word) : (s.accept w).cause = s.cause := rfl
@[simp] theorem State.accept_finfo (s : State) (w : Word) : (s.accept w).finfo = s.finfo := rfl
@[simp] theorem State.accept_fcmd (s : State) (w : Word) : (s.accept w).fcmd = s.fcmd := rfl
@[simp] theorem State.accept_cmd (s : State) (w : Word) : (s.accept w).cmd = w := rfl
@[simp] theorem State.accept_waiting (s : State) (w : Word) : (s.accept w).waiting = s.waiting := rfl
@[simp] theorem State.accept_build (s : State) (w : Word) : (s.accept w).build = s.build := rfl
@[simp] theorem State.accept_host (s : State) (w : Word) : (s.accept w).host = s.host := rfl
@[simp] theorem State.accept_hostData (s : State) (w : Word) : (s.accept w).hostData = s.hostData := rfl
@[simp] theorem State.accept_free (s : State) (w : Word) : (s.accept w).free = s.free := rfl

/-! ## `popHost` -/

@[simp] theorem State.popHost_x (s : State) : (s.popHost).x = s.x := rfl
@[simp] theorem State.popHost_r (s : State) : (s.popHost).r = s.r := rfl
@[simp] theorem State.popHost_bq (s : State) : (s.popHost).bq = s.bq := rfl
@[simp] theorem State.popHost_bqd (s : State) : (s.popHost).bqd = s.bqd := rfl
@[simp] theorem State.popHost_svf (s : State) : (s.popHost).svf = s.svf := rfl
@[simp] theorem State.popHost_svfc (s : State) : (s.popHost).svfc = s.svfc := rfl
@[simp] theorem State.popHost_dmem (s : State) : (s.popHost).dmem = s.dmem := rfl
@[simp] theorem State.popHost_run (s : State) : (s.popHost).run = s.run := rfl
@[simp] theorem State.popHost_cause (s : State) : (s.popHost).cause = s.cause := rfl
@[simp] theorem State.popHost_finfo (s : State) : (s.popHost).finfo = s.finfo := rfl
@[simp] theorem State.popHost_fcmd (s : State) : (s.popHost).fcmd = s.fcmd := rfl
@[simp] theorem State.popHost_cmd (s : State) : (s.popHost).cmd = s.cmd := rfl
@[simp] theorem State.popHost_waiting (s : State) : (s.popHost).waiting = s.waiting := rfl
@[simp] theorem State.popHost_build (s : State) : (s.popHost).build = s.build := rfl
@[simp] theorem State.popHost_host (s : State) : (s.popHost).host = s.host.tail := rfl
@[simp] theorem State.popHost_hostData (s : State) : (s.popHost).hostData = s.hostData := rfl
@[simp] theorem State.popHost_free (s : State) : (s.popHost).free = s.free := rfl

/-! ## `putDelay` -/

@[simp] theorem State.putDelay_x (s : State) (c : Chan) (q : BqDelay × Memory) : (s.putDelay c q).x = s.x := rfl
@[simp] theorem State.putDelay_r (s : State) (c : Chan) (q : BqDelay × Memory) : (s.putDelay c q).r = s.r := rfl
@[simp] theorem State.putDelay_bq (s : State) (c : Chan) (q : BqDelay × Memory) : (s.putDelay c q).bq = s.bq := rfl
@[simp] theorem State.putDelay_bqd (s : State) (c : Chan) (q : BqDelay × Memory) : (s.putDelay c q).bqd = s.bqd.set c q.1 := rfl
@[simp] theorem State.putDelay_svf (s : State) (c : Chan) (q : BqDelay × Memory) : (s.putDelay c q).svf = s.svf := rfl
@[simp] theorem State.putDelay_svfc (s : State) (c : Chan) (q : BqDelay × Memory) : (s.putDelay c q).svfc = s.svfc := rfl
@[simp] theorem State.putDelay_dmem (s : State) (c : Chan) (q : BqDelay × Memory) : (s.putDelay c q).dmem = q.2 := rfl
@[simp] theorem State.putDelay_run (s : State) (c : Chan) (q : BqDelay × Memory) : (s.putDelay c q).run = s.run := rfl
@[simp] theorem State.putDelay_cause (s : State) (c : Chan) (q : BqDelay × Memory) : (s.putDelay c q).cause = s.cause := rfl
@[simp] theorem State.putDelay_finfo (s : State) (c : Chan) (q : BqDelay × Memory) : (s.putDelay c q).finfo = s.finfo := rfl
@[simp] theorem State.putDelay_fcmd (s : State) (c : Chan) (q : BqDelay × Memory) : (s.putDelay c q).fcmd = s.fcmd := rfl
@[simp] theorem State.putDelay_cmd (s : State) (c : Chan) (q : BqDelay × Memory) : (s.putDelay c q).cmd = s.cmd := rfl
@[simp] theorem State.putDelay_waiting (s : State) (c : Chan) (q : BqDelay × Memory) : (s.putDelay c q).waiting = s.waiting := rfl
@[simp] theorem State.putDelay_build (s : State) (c : Chan) (q : BqDelay × Memory) : (s.putDelay c q).build = s.build := rfl
@[simp] theorem State.putDelay_host (s : State) (c : Chan) (q : BqDelay × Memory) : (s.putDelay c q).host = s.host := rfl
@[simp] theorem State.putDelay_hostData (s : State) (c : Chan) (q : BqDelay × Memory) : (s.putDelay c q).hostData = s.hostData := rfl
@[simp] theorem State.putDelay_free (s : State) (c : Chan) (q : BqDelay × Memory) : (s.putDelay c q).free = s.free := rfl

/-! ## `hostReadSys` -/

@[simp] theorem State.hostReadSys_x (s : State) (g : SysReg) : (s.hostReadSys g).x = s.x := rfl
@[simp] theorem State.hostReadSys_r (s : State) (g : SysReg) : (s.hostReadSys g).r = s.r := rfl
@[simp] theorem State.hostReadSys_bq (s : State) (g : SysReg) : (s.hostReadSys g).bq = s.bq := rfl
@[simp] theorem State.hostReadSys_bqd (s : State) (g : SysReg) : (s.hostReadSys g).bqd = s.bqd := rfl
@[simp] theorem State.hostReadSys_svf (s : State) (g : SysReg) : (s.hostReadSys g).svf = s.svf := rfl
@[simp] theorem State.hostReadSys_svfc (s : State) (g : SysReg) : (s.hostReadSys g).svfc = s.svfc := rfl
@[simp] theorem State.hostReadSys_dmem (s : State) (g : SysReg) : (s.hostReadSys g).dmem = s.dmem := rfl
@[simp] theorem State.hostReadSys_run (s : State) (g : SysReg) : (s.hostReadSys g).run = s.run := rfl
@[simp] theorem State.hostReadSys_cause (s : State) (g : SysReg) : (s.hostReadSys g).cause = s.cause := rfl
@[simp] theorem State.hostReadSys_finfo (s : State) (g : SysReg) : (s.hostReadSys g).finfo = s.finfo := rfl
@[simp] theorem State.hostReadSys_fcmd (s : State) (g : SysReg) : (s.hostReadSys g).fcmd = s.fcmd := rfl
@[simp] theorem State.hostReadSys_cmd (s : State) (g : SysReg) : (s.hostReadSys g).cmd = s.cmd := rfl
@[simp] theorem State.hostReadSys_waiting (s : State) (g : SysReg) : (s.hostReadSys g).waiting = s.waiting := rfl
@[simp] theorem State.hostReadSys_build (s : State) (g : SysReg) : (s.hostReadSys g).build = s.build := rfl
@[simp] theorem State.hostReadSys_host (s : State) (g : SysReg) : (s.hostReadSys g).host = s.host := rfl
@[simp] theorem State.hostReadSys_hostData (s : State) (g : SysReg) : (s.hostReadSys g).hostData = (s.readSys g).setWidth 64 := rfl
@[simp] theorem State.hostReadSys_free (s : State) (g : SysReg) : (s.hostReadSys g).free = s.free := rfl

/-! ## `hostReset` -/

@[simp] theorem State.hostReset_x (s : State) : (s.hostReset).x = Vector.replicate 16 0 := rfl
@[simp] theorem State.hostReset_r (s : State) : (s.hostReset).r = Vector.replicate 16 0 := rfl
@[simp] theorem State.hostReset_bq (s : State) : (s.hostReset).bq = { b0 := 0, b1 := 0, b2 := 0, a1 := 0, a2 := 0 } := rfl
@[simp] theorem State.hostReset_bqd (s : State) : (s.hostReset).bqd = Vector.replicate 16 { x1 := 0, x2 := 0, y1 := 0, y2 := 0 } := rfl
@[simp] theorem State.hostReset_svf (s : State) : (s.hostReset).svf = { f1 := 0, q1 := 0, fs := 0 } := rfl
@[simp] theorem State.hostReset_svfc (s : State) : (s.hostReset).svfc = Vector.replicate 16 { h := 0, b := 0, l := 0 } := rfl
@[simp] theorem State.hostReset_dmem (s : State) : (s.hostReset).dmem = [] := rfl
@[simp] theorem State.hostReset_run (s : State) : (s.hostReset).run = .idle := rfl
@[simp] theorem State.hostReset_cause (s : State) : (s.hostReset).cause = 0 := rfl
@[simp] theorem State.hostReset_finfo (s : State) : (s.hostReset).finfo = 0 := rfl
@[simp] theorem State.hostReset_fcmd (s : State) : (s.hostReset).fcmd = 0 := rfl
@[simp] theorem State.hostReset_cmd (s : State) : (s.hostReset).cmd = 0 := rfl
@[simp] theorem State.hostReset_waiting (s : State) : (s.hostReset).waiting = none := rfl
@[simp] theorem State.hostReset_build (s : State) : (s.hostReset).build = s.build := rfl
@[simp] theorem State.hostReset_host (s : State) : (s.hostReset).host = s.host := rfl
@[simp] theorem State.hostReset_hostData (s : State) : (s.hostReset).hostData = s.hostData := rfl
@[simp] theorem State.hostReset_free (s : State) : (s.hostReset).free = s.free := rfl

/-! ## Accessors after an update -/

@[simp] theorem State.getX_setR (s : State) (i : RReg) (v : Word) (j : XReg) : (s.setR i v).getX j = s.getX j := rfl
@[simp] theorem State.getX_setDelay (s : State) (c : Chan) (d : BqDelay) (j : XReg) : (s.setDelay c d).getX j = s.getX j := rfl
@[simp] theorem State.getX_setSvf (s : State) (c : Chan) (v : SvfChan) (j : XReg) : (s.setSvf c v).getX j = s.getX j := rfl
@[simp] theorem State.getX_setBq (s : State) (k : BqCoef) (j : XReg) : (s.setBq k).getX j = s.getX j := rfl
@[simp] theorem State.getX_setSvfCoef (s : State) (f1 q1 : Pat) (j : XReg) : (s.setSvfCoef f1 q1).getX j = s.getX j := rfl
@[simp] theorem State.getX_setDmem (s : State) (m : Memory) (j : XReg) : (s.setDmem m).getX j = s.getX j := rfl
@[simp] theorem State.getX_raise (s : State) (e : Raised) (j : XReg) : (s.raise e).getX j = s.getX j := rfl
@[simp] theorem State.getX_accept (s : State) (w : Word) (j : XReg) : (s.accept w).getX j = s.getX j := rfl
@[simp] theorem State.getX_popHost (s : State) (j : XReg) : (s.popHost).getX j = s.getX j := rfl
@[simp] theorem State.getX_putDelay (s : State) (c : Chan) (q : BqDelay × Memory) (j : XReg) : (s.putDelay c q).getX j = s.getX j := rfl
@[simp] theorem State.getX_hostReadSys (s : State) (g : SysReg) (j : XReg) : (s.hostReadSys g).getX j = s.getX j := rfl
@[simp] theorem State.getR_setX (s : State) (i : XReg) (v : Pat) (j : RReg) : (s.setX i v).getR j = s.getR j := rfl
@[simp] theorem State.getR_setDelay (s : State) (c : Chan) (d : BqDelay) (j : RReg) : (s.setDelay c d).getR j = s.getR j := rfl
@[simp] theorem State.getR_setSvf (s : State) (c : Chan) (v : SvfChan) (j : RReg) : (s.setSvf c v).getR j = s.getR j := rfl
@[simp] theorem State.getR_setBq (s : State) (k : BqCoef) (j : RReg) : (s.setBq k).getR j = s.getR j := rfl
@[simp] theorem State.getR_setSvfCoef (s : State) (f1 q1 : Pat) (j : RReg) : (s.setSvfCoef f1 q1).getR j = s.getR j := rfl
@[simp] theorem State.getR_setDmem (s : State) (m : Memory) (j : RReg) : (s.setDmem m).getR j = s.getR j := rfl
@[simp] theorem State.getR_raise (s : State) (e : Raised) (j : RReg) : (s.raise e).getR j = s.getR j := rfl
@[simp] theorem State.getR_accept (s : State) (w : Word) (j : RReg) : (s.accept w).getR j = s.getR j := rfl
@[simp] theorem State.getR_popHost (s : State) (j : RReg) : (s.popHost).getR j = s.getR j := rfl
@[simp] theorem State.getR_putDelay (s : State) (c : Chan) (q : BqDelay × Memory) (j : RReg) : (s.putDelay c q).getR j = s.getR j := rfl
@[simp] theorem State.getR_hostReadSys (s : State) (g : SysReg) (j : RReg) : (s.hostReadSys g).getR j = s.getR j := rfl
@[simp] theorem State.getDelay_setX (s : State) (i : XReg) (v : Pat) (j : Chan) : (s.setX i v).getDelay j = s.getDelay j := rfl
@[simp] theorem State.getDelay_setR (s : State) (i : RReg) (v : Word) (j : Chan) : (s.setR i v).getDelay j = s.getDelay j := rfl
@[simp] theorem State.getDelay_setSvf (s : State) (c : Chan) (v : SvfChan) (j : Chan) : (s.setSvf c v).getDelay j = s.getDelay j := rfl
@[simp] theorem State.getDelay_setBq (s : State) (k : BqCoef) (j : Chan) : (s.setBq k).getDelay j = s.getDelay j := rfl
@[simp] theorem State.getDelay_setSvfCoef (s : State) (f1 q1 : Pat) (j : Chan) : (s.setSvfCoef f1 q1).getDelay j = s.getDelay j := rfl
@[simp] theorem State.getDelay_setDmem (s : State) (m : Memory) (j : Chan) : (s.setDmem m).getDelay j = s.getDelay j := rfl
@[simp] theorem State.getDelay_raise (s : State) (e : Raised) (j : Chan) : (s.raise e).getDelay j = s.getDelay j := rfl
@[simp] theorem State.getDelay_accept (s : State) (w : Word) (j : Chan) : (s.accept w).getDelay j = s.getDelay j := rfl
@[simp] theorem State.getDelay_popHost (s : State) (j : Chan) : (s.popHost).getDelay j = s.getDelay j := rfl
@[simp] theorem State.getDelay_hostReadSys (s : State) (g : SysReg) (j : Chan) : (s.hostReadSys g).getDelay j = s.getDelay j := rfl
@[simp] theorem State.getSvf_setX (s : State) (i : XReg) (v : Pat) (j : Chan) : (s.setX i v).getSvf j = s.getSvf j := rfl
@[simp] theorem State.getSvf_setR (s : State) (i : RReg) (v : Word) (j : Chan) : (s.setR i v).getSvf j = s.getSvf j := rfl
@[simp] theorem State.getSvf_setDelay (s : State) (c : Chan) (d : BqDelay) (j : Chan) : (s.setDelay c d).getSvf j = s.getSvf j := rfl
@[simp] theorem State.getSvf_setBq (s : State) (k : BqCoef) (j : Chan) : (s.setBq k).getSvf j = s.getSvf j := rfl
@[simp] theorem State.getSvf_setSvfCoef (s : State) (f1 q1 : Pat) (j : Chan) : (s.setSvfCoef f1 q1).getSvf j = s.getSvf j := rfl
@[simp] theorem State.getSvf_setDmem (s : State) (m : Memory) (j : Chan) : (s.setDmem m).getSvf j = s.getSvf j := rfl
@[simp] theorem State.getSvf_raise (s : State) (e : Raised) (j : Chan) : (s.raise e).getSvf j = s.getSvf j := rfl
@[simp] theorem State.getSvf_accept (s : State) (w : Word) (j : Chan) : (s.accept w).getSvf j = s.getSvf j := rfl
@[simp] theorem State.getSvf_popHost (s : State) (j : Chan) : (s.popHost).getSvf j = s.getSvf j := rfl
@[simp] theorem State.getSvf_putDelay (s : State) (c : Chan) (q : BqDelay × Memory) (j : Chan) : (s.putDelay c q).getSvf j = s.getSvf j := rfl
@[simp] theorem State.getSvf_hostReadSys (s : State) (g : SysReg) (j : Chan) : (s.hostReadSys g).getSvf j = s.getSvf j := rfl
@[simp] theorem State.fmt_setX (s : State) (i : XReg) (v : Pat) : (s.setX i v).fmt = s.fmt := rfl
@[simp] theorem State.fmt_setR (s : State) (i : RReg) (v : Word) : (s.setR i v).fmt = s.fmt := rfl
@[simp] theorem State.fmt_setDelay (s : State) (c : Chan) (d : BqDelay) : (s.setDelay c d).fmt = s.fmt := rfl
@[simp] theorem State.fmt_setSvf (s : State) (c : Chan) (v : SvfChan) : (s.setSvf c v).fmt = s.fmt := rfl
@[simp] theorem State.fmt_setBq (s : State) (k : BqCoef) : (s.setBq k).fmt = s.fmt := rfl
@[simp] theorem State.fmt_setSvfCoef (s : State) (f1 q1 : Pat) : (s.setSvfCoef f1 q1).fmt = s.fmt := rfl
@[simp] theorem State.fmt_setDmem (s : State) (m : Memory) : (s.setDmem m).fmt = s.fmt := rfl
@[simp] theorem State.fmt_raise (s : State) (e : Raised) : (s.raise e).fmt = s.fmt := rfl
@[simp] theorem State.fmt_accept (s : State) (w : Word) : (s.accept w).fmt = s.fmt := rfl
@[simp] theorem State.fmt_popHost (s : State) : (s.popHost).fmt = s.fmt := rfl
@[simp] theorem State.fmt_putDelay (s : State) (c : Chan) (q : BqDelay × Memory) : (s.putDelay c q).fmt = s.fmt := rfl
@[simp] theorem State.fmt_hostReadSys (s : State) (g : SysReg) : (s.hostReadSys g).fmt = s.fmt := rfl
@[simp] theorem State.fmt_hostReset (s : State) : (s.hostReset).fmt = s.fmt := rfl
@[simp] theorem State.irq_setX (s : State) (i : XReg) (v : Pat) : (s.setX i v).irq = s.irq := rfl
@[simp] theorem State.irq_setR (s : State) (i : RReg) (v : Word) : (s.setR i v).irq = s.irq := rfl
@[simp] theorem State.irq_setDelay (s : State) (c : Chan) (d : BqDelay) : (s.setDelay c d).irq = s.irq := rfl
@[simp] theorem State.irq_setSvf (s : State) (c : Chan) (v : SvfChan) : (s.setSvf c v).irq = s.irq := rfl
@[simp] theorem State.irq_setBq (s : State) (k : BqCoef) : (s.setBq k).irq = s.irq := rfl
@[simp] theorem State.irq_setSvfCoef (s : State) (f1 q1 : Pat) : (s.setSvfCoef f1 q1).irq = s.irq := rfl
@[simp] theorem State.irq_setDmem (s : State) (m : Memory) : (s.setDmem m).irq = s.irq := rfl
@[simp] theorem State.irq_popHost (s : State) : (s.popHost).irq = s.irq := rfl
@[simp] theorem State.irq_putDelay (s : State) (c : Chan) (q : BqDelay × Memory) : (s.putDelay c q).irq = s.irq := rfl
@[simp] theorem State.irq_hostReadSys (s : State) (g : SysReg) : (s.hostReadSys g).irq = s.irq := rfl

theorem State.getX_setX (s : State) (i j : XReg) (v : Pat) : (s.setX i v).getX j = if j = i then v else s.getX j := by
  simp only [getX, setX, Fin.getElem_fin, Vector.getElem_set, Fin.ext_iff, eq_comm]

@[simp] theorem State.getX_setX_same (s : State) (i : XReg) (v : Pat) : (s.setX i v).getX i = v := by simp [getX_setX]

theorem State.getX_setX_other (s : State) {i j : XReg} (v : Pat) (h : j ≠ i) : (s.setX i v).getX j = s.getX j := by
  simp [getX_setX, h]

theorem State.getR_setR (s : State) (i j : RReg) (v : Word) : (s.setR i v).getR j = if j = i then v else s.getR j := by
  simp only [getR, setR, Fin.getElem_fin, Vector.getElem_set, Fin.ext_iff, eq_comm]

@[simp] theorem State.getR_setR_same (s : State) (i : RReg) (v : Word) : (s.setR i v).getR i = v := by simp [getR_setR]

theorem State.getR_setR_other (s : State) {i j : RReg} (v : Word) (h : j ≠ i) : (s.setR i v).getR j = s.getR j := by
  simp [getR_setR, h]

theorem State.getDelay_setDelay (s : State) (c j : Chan) (d : BqDelay) :
    (s.setDelay c d).getDelay j = if j = c then d else s.getDelay j := by
  simp only [getDelay, setDelay, Fin.getElem_fin, Vector.getElem_set, Fin.ext_iff, eq_comm]

@[simp] theorem State.getDelay_setDelay_same (s : State) (c : Chan) (d : BqDelay) : (s.setDelay c d).getDelay c = d := by
  simp [getDelay_setDelay]

theorem State.getDelay_setDelay_other (s : State) {c j : Chan} (d : BqDelay) (h : j ≠ c) :
    (s.setDelay c d).getDelay j = s.getDelay j := by simp [getDelay_setDelay, h]

theorem State.getDelay_putDelay (s : State) (c j : Chan) (q : BqDelay × Memory) :
    (s.putDelay c q).getDelay j = if j = c then q.1 else s.getDelay j := s.getDelay_setDelay c j q.1

theorem State.getSvf_setSvf (s : State) (c j : Chan) (v : SvfChan) :
    (s.setSvf c v).getSvf j = if j = c then v else s.getSvf j := by
  simp only [getSvf, setSvf, Fin.getElem_fin, Vector.getElem_set, Fin.ext_iff, eq_comm]

@[simp] theorem State.getSvf_setSvf_same (s : State) (c : Chan) (v : SvfChan) : (s.setSvf c v).getSvf c = v := by
  simp [getSvf_setSvf]

theorem State.getSvf_setSvf_other (s : State) {c j : Chan} (v : SvfChan) (h : j ≠ c) :
    (s.setSvf c v).getSvf j = s.getSvf j := by simp [getSvf_setSvf, h]

/-- What a buffer form of the state-variable filter leaves: one channel state and DMEM. -/
theorem State.svfBuf_eq (s : State) (o : SvfOut) (c : Chan) (base count : Word) :
    s.svfBuf o c base count =
      (s.setSvf c (svfBufLoop s.build s.svf o count.toNat base.toNat (s.getSvf c) s.dmem).1).setDmem
        (svfBufLoop s.build s.svf o count.toNat base.toNat (s.getSvf c) s.dmem).2 := rfl

end Sys2Proof.Machine
end

