-- ==== Sys2Proof/Laws/Checks.lean ====
section
/-! SUPPORT. What the checks of a command answer, and how a command ends. -/

namespace Sys2Proof.Machine

@[simp] theorem State.checked_none (s t : State) : s.checked none t = .next t := rfl

@[simp] theorem State.checked_some (s t : State) (e : Raised) : s.checked (some e) t = .next (s.raise e) := rfl

/-- A command ends in its effect or in a fault entry (60_exceptions.md R319, R320). -/
theorem State.checked_cases (s t u : State) (c : Option Raised) (h : s.checked c t = .next u) :
    (c = none ∧ u = t) ∨ ∃ e, c = some e ∧ u = s.raise e := by
  cases c with
  | none => left; simpa [eq_comm] using h
  | some e => right; exact ⟨e, rfl, by simpa [eq_comm] using h⟩

/-- A command always answers a next state. -/
theorem State.checked_next (s t : State) (c : Option Raised) : ∃ u, s.checked c t = .next u := by
  cases c
  · exact ⟨_, rfl⟩
  · exact ⟨_, rfl⟩

@[simp] theorem firstRaised_nil : firstRaised [] = none := rfl

@[simp] theorem firstRaised_none (cs : List (Option Raised)) : firstRaised (none :: cs) = firstRaised cs := rfl

@[simp] theorem firstRaised_some (e : Raised) (cs : List (Option Raised)) : firstRaised (some e :: cs) = some e := rfl

/-- No check raises exactly when each passes. -/
theorem firstRaised_eq_none (cs : List (Option Raised)) : firstRaised cs = none ↔ ∀ c ∈ cs, c = none := by
  induction cs with
  | nil => simp
  | cons c cs ih => cases c <;> simp [ih]

/-- What a list of checks raises is what one of them raises. -/
theorem firstRaised_mem (cs : List (Option Raised)) (e : Raised) (h : firstRaised cs = some e) : some e ∈ cs := by
  induction cs with
  | nil => simp at h
  | cons c cs ih =>
    cases c with
    | none => exact List.mem_cons_of_mem _ (ih h)
    | some d => simp at h; simp [h]

/-- The check that raises is reached when every check before it passes. -/
theorem firstRaised_append (cs ds : List (Option Raised)) (h : ∀ c ∈ cs, c = none) :
    firstRaised (cs ++ ds) = firstRaised ds := by
  induction cs with
  | nil => rfl
  | cons c cs ih =>
    have hc : c = none := h c (by simp)
    subst hc
    simpa using ih fun d hd => h d (by simp [hd])

theorem checkRegion_eq_none (b : Build) (base : Word) (count size align : Nat) :
    checkRegion b base count size align = none ↔
      count = 0 ∨ (base.toNat % align = 0 ∧ base.toNat + count * size ≤ b.memBytes) := by
  unfold checkRegion
  split
  · simp_all
  · split
    · simp_all
    · split
      · simp_all
      · simp_all

theorem checkElems_eq_none (b : Build) (base : Word) (count : Nat) :
    checkElems b base count = none ↔ RegionOk b base count := checkRegion_eq_none b base count _ _

theorem checkTable_eq_none (b : Build) (base : Word) : checkTable b base = none ↔ TableOk b base :=
  checkRegion_eq_none b base b.nch 4 4

/-- Alignment is tested before range (60_exceptions.md R319). -/
theorem checkRegion_align (b : Build) (base : Word) (count size align : Nat) (hc : count ≠ 0)
    (h : base.toNat % align ≠ 0) : checkRegion b base count size align = some ⟨.align, base⟩ := by
  simp [checkRegion, hc, h]

theorem checkRegion_access (b : Build) (base : Word) (count size align : Nat) (hc : count ≠ 0)
    (h : base.toNat % align = 0) (hr : b.memBytes < base.toNat + count * size) :
    checkRegion b base count size align = some ⟨.access, base⟩ := by
  simp [checkRegion, hc, h, hr]

/-- A region check raises E_ALIGN or E_ACCESS with its base. -/
theorem checkRegion_cases (b : Build) (base : Word) (count size align : Nat) (e : Raised)
    (h : checkRegion b base count size align = some e) : (e = ⟨.align, base⟩ ∨ e = ⟨.access, base⟩) ∧ count ≠ 0 := by
  unfold checkRegion at h
  split at h
  · simp at h
  · split at h
    · simp at h; simp_all
    · split at h
      · simp at h; simp_all
      · simp at h

theorem checkChannel_eq_none (b : Build) (c : Chan) : checkChannel b c = none ↔ c.val < b.nch := by
  unfold checkChannel; split <;> simp_all

theorem checkChannel_absent (b : Build) (c : Chan) (h : b.nch ≤ c.val) :
    checkChannel b c = some ⟨.channel, BitVec.ofNat 32 c.val⟩ := by
  simp [checkChannel, Nat.not_lt.2 h]

theorem checkCount_eq_none (n : Word) : checkCount n = none ↔ 2 ≤ n.toNat := by
  unfold checkCount
  split
  · simp; omega
  · simp; omega

theorem checkCount_small (n : Word) (h : n.toNat < 2) : checkCount n = some ⟨.count, n⟩ := by simp [checkCount, h]

theorem checkOverlap_eq_none (i o : Word) (len : Nat) : checkOverlap i o len = none ↔ Disjoint2 i o len := by
  unfold checkOverlap Disjoint2
  split
  · simp; omega
  · simp; omega

theorem checkOverlap_of_not (i o : Word) (len : Nat) (h : ¬Disjoint2 i o len) :
    checkOverlap i o len = some ⟨.overlap, o⟩ := by
  unfold checkOverlap Disjoint2 at *
  rw [if_pos (by omega)]

theorem mem_channels (b : Build) (c : Chan) : c ∈ channels b ↔ c.val < b.nch := by
  simp [channels]

/-- A multi-channel form's buffer checks pass when each channel's does (43_biquad.md R254). -/
theorem checkBuffers_eq_none (b : Build) (ps : List (Chan × Word)) (count : Word) :
    checkBuffers b ps count = none ↔ ∀ p ∈ ps, RegionOk b p.2 count.toNat := by
  simp only [checkBuffers, firstRaised_eq_none, List.forall_mem_map, checkElems_eq_none]

end Sys2Proof.Machine
end

