-- ==== Sys2Proof/Laws/Encoding.lean ====
section
/-! SUPPORT. Words and their fields: the two are each other's inverse, and the sub-fields read back what was written. -/
namespace Sys2Proof

/-- The word with given fields, as six strings of bits side by side. -/
theorem wordOf_eq (f : Fields) : wordOf f = (f.op ++ f.d ++ f.a ++ f.b ++ f.c ++ f.imm8 : BitVec 32) := by
  apply BitVec.eq_of_toNat_eq
  have h1 := f.op.isLt; have h2 := f.d.isLt; have h3 := f.a.isLt; have h4 := f.b.isLt; have h5 := f.c.isLt
  have h6 := f.imm8.isLt
  simp only [wordOf, BitVec.toNat_append, BitVec.toNat_ofNat]
  rw [← Nat.shiftLeft_add_eq_or_of_lt h2, ← Nat.shiftLeft_add_eq_or_of_lt h3, ← Nat.shiftLeft_add_eq_or_of_lt h4,
    ← Nat.shiftLeft_add_eq_or_of_lt h5, ← Nat.shiftLeft_add_eq_or_of_lt h6]
  simp only [Nat.shiftLeft_eq]
  generalize f.op.toNat = o at *
  generalize f.d.toNat = d at *
  generalize f.a.toNat = a at *
  generalize f.b.toNat = b at *
  generalize f.c.toNat = c at *
  generalize f.imm8.toNat = i at *
  norm_num at *
  omega

/-- The fields of a word made of fields are those fields. -/
theorem fields_word (f : Fields) : fieldsOf (wordOf f) = f := by
  rw [wordOf_eq]
  rcases f with ⟨op, d, a, b, c, i⟩
  simp only [fieldsOf, Fields.mk.injEq]
  refine ⟨?_,?_,?_,?_,?_,?_⟩
  all_goals
    ext j hj
    simp only [BitVec.getElem_extractLsb', BitVec.getLsbD_append]
    interval_cases j <;> simp

/-- The word made of a word's fields is that word. -/
theorem word_fields (w : Word) : wordOf (fieldsOf w) = w := by
  rw [wordOf_eq]
  ext j hj
  simp only [fieldsOf, BitVec.getElem_append, BitVec.getElem_extractLsb']
  interval_cases j <;> simp

theorem fieldsOf_and (v w : Word) :
    fieldsOf (v &&& w) =
      { op := (fieldsOf v).op &&& (fieldsOf w).op, d := (fieldsOf v).d &&& (fieldsOf w).d,
        a := (fieldsOf v).a &&& (fieldsOf w).a, b := (fieldsOf v).b &&& (fieldsOf w).b,
        c := (fieldsOf v).c &&& (fieldsOf w).c, imm8 := (fieldsOf v).imm8 &&& (fieldsOf w).imm8 } := by
  simp only [fieldsOf, BitVec.extractLsb'_and]

theorem imm16Of_fmtI (op : BitVec 8) (d a : Fin 16) (imm : BitVec 16) : imm16Of (fmtI op d a imm) = imm := by
  apply BitVec.eq_of_toNat_eq
  have := imm.isLt
  simp only [imm16Of, fmtI, BitVec.toNat_ofNat, BitVec.extractLsb'_toNat, Nat.shiftRight_eq_div_pow]
  generalize imm.toNat = n at *
  norm_num at *
  omega

theorem csrOfNumber_csrNumber (c : Csr) : csrOfNumber (csrNumber c) = some c := by cases c <;> rfl

theorem constOfNumber_constNumber (k : ConstSel) : constOfNumber (constNumber k) = some k := by cases k <;> rfl

theorem selCh_high : ∀ (s : BitVec 4) (c : Chan), (selCh s c).extractLsb' 4 4 = s := by decide

theorem selCh_low : ∀ (s : BitVec 4) (c : Chan), ((selCh s c).extractLsb' 0 4).toFin = c := by decide

theorem selCh_and : ∀ (s : BitVec 4) (c : Chan), selCh s c &&& 0xF0#8 = selCh s 0 := by decide
/-- A masked word, field by field. -/
theorem fields_and_eq (f : Fields) (m p : Word)
    (h : Fields.mk (f.op &&& (fieldsOf m).op) (f.d &&& (fieldsOf m).d) (f.a &&& (fieldsOf m).a) (f.b &&& (fieldsOf m).b)
      (f.c &&& (fieldsOf m).c) (f.imm8 &&& (fieldsOf m).imm8) = fieldsOf p) :
    fieldsOf (wordOf f &&& m) = fieldsOf p := by
  rw [fieldsOf_and, fields_word, h]

end Sys2Proof
end

