-- ==== Sys2Proof/Laws/Memory.lean ====
section
/-! SUPPORT. The laws of DMEM: read after write, what a write leaves alone, and the canonical form. -/

namespace Sys2Proof.Machine

/-! ## One byte -/

theorem readByte_consCell (a : Nat) (v : Byte) (m : Memory) (p : Nat) (hp : p ≠ a) :
    readByte (consCell a v m) p = readByte m p := by
  unfold consCell
  split
  · rfl
  · simp [readByte, hp]

theorem readByte_of_below (m : Memory) (a : Nat) (h : ∀ c ∈ m, a < c.1) : readByte m a = unlistedByte := by
  induction m with
  | nil => rfl
  | cons c m ih =>
    have h0 : a ≠ c.1 := by have := h c (by simp); omega
    simpa [readByte, h0] using ih fun d hd => h d (by simp [hd])

theorem readByte_consCell_same (a : Nat) (v : Byte) (m : Memory) (h : ∀ c ∈ m, a < c.1) :
    readByte (consCell a v m) a = v := by
  unfold consCell
  split
  · rename_i hv
    rw [readByte_of_below m a h, hv]
  · simp [readByte]

/-- A write leaves every other address alone. -/
theorem readByte_writeByte_other (m : Memory) (a p : Nat) (v : Byte) (hp : p ≠ a) :
    readByte (writeByte m a v) p = readByte m p := by
  induction m with
  | nil => exact readByte_consCell a v [] p hp
  | cons c m ih =>
    obtain ⟨b, u⟩ := c
    simp only [writeByte]
    split
    · exact readByte_consCell a v _ p hp
    · split
      · rename_i hab
        rw [readByte_consCell a v m p hp]
        simp [readByte, ← hab, hp]
      · simp only [readByte, ih]

theorem wf_tail {c : Host.Cell} {m : Memory} (h : Memory.wf (c :: m)) : Memory.wf m := by
  simp only [Memory.wf, List.map_cons, List.pairwise_cons, List.mem_cons, forall_eq_or_imp] at h
  exact ⟨h.1.2, h.2.2⟩

theorem wf_head_lt {c : Host.Cell} {m : Memory} (h : Memory.wf (c :: m)) : ∀ d ∈ m, c.1 < d.1 := by
  simp only [Memory.wf, List.map_cons, List.pairwise_cons] at h
  exact fun d hd => h.1.1 d.1 (List.mem_map_of_mem hd)

theorem wf_cons {c : Host.Cell} {m : Memory} (hm : Memory.wf m) (hl : ∀ d ∈ m, c.1 < d.1) (hv : c.2 ≠ unlistedByte) :
    Memory.wf (c :: m) := by
  refine ⟨?_, ?_⟩
  · simp only [List.map_cons, List.pairwise_cons]
    refine ⟨fun a ha => ?_, hm.1⟩
    obtain ⟨d, hd, rfl⟩ := List.mem_map.1 ha
    exact hl d hd
  · intro d hd
    rcases List.mem_cons.1 hd with rfl | hd
    · exact hv
    · exact hm.2 d hd

/-- A write is read back. -/
theorem readByte_writeByte_same (m : Memory) (a : Nat) (v : Byte) (h : Memory.wf m) :
    readByte (writeByte m a v) a = v := by
  induction m with
  | nil => exact readByte_consCell_same a v [] (by simp)
  | cons c m ih =>
    obtain ⟨b, u⟩ := c
    have hlt := wf_head_lt h
    simp only [writeByte]
    split
    · rename_i hab
      refine readByte_consCell_same a v _ fun d hd => ?_
      rcases List.mem_cons.1 hd with rfl | hd
      · exact hab
      · exact lt_trans hab (hlt d hd)
    · split
      · rename_i hab
        exact readByte_consCell_same a v m fun d hd => hab ▸ hlt d hd
      · rename_i hab
        simp [readByte, hab, ih (wf_tail h)]

/-- A written memory lists only the written address and addresses it listed before. -/
theorem mem_writeByte (m : Memory) (a : Nat) (v : Byte) : ∀ c ∈ writeByte m a v, c.1 = a ∨ c ∈ m := by
  induction m with
  | nil =>
    intro c hc
    unfold writeByte consCell at hc
    split at hc
    · simp at hc
    · simp at hc; exact .inl (by rw [hc])
  | cons d m ih =>
    obtain ⟨b, u⟩ := d
    intro c hc
    simp only [writeByte] at hc
    split at hc
    · unfold consCell at hc
      split at hc
      · exact .inr hc
      · rcases List.mem_cons.1 hc with rfl | hc
        · exact .inl rfl
        · exact .inr hc
    · split at hc
      · unfold consCell at hc
        split at hc
        · exact .inr (List.mem_cons_of_mem _ hc)
        · rcases List.mem_cons.1 hc with rfl | hc
          · exact .inl rfl
          · exact .inr (List.mem_cons_of_mem _ hc)
      · rcases List.mem_cons.1 hc with rfl | hc
        · exact .inr (by simp)
        · rcases ih c hc with h | h
          · exact .inl h
          · exact .inr (List.mem_cons_of_mem _ h)

theorem wf_consCell (a : Nat) (v : Byte) (m : Memory) (h : Memory.wf m) (hl : ∀ c ∈ m, a < c.1) :
    Memory.wf (consCell a v m) := by
  unfold consCell
  split
  · exact h
  · exact wf_cons h hl ‹_›

/-- A write keeps the canonical form. -/
theorem wf_writeByte (m : Memory) (a : Nat) (v : Byte) (h : Memory.wf m) : Memory.wf (writeByte m a v) := by
  induction m with
  | nil => exact wf_consCell a v [] h (by simp)
  | cons c m ih =>
    obtain ⟨b, u⟩ := c
    have hlt := wf_head_lt h
    simp only [writeByte]
    split
    · rename_i hab
      refine wf_consCell a v _ h fun d hd => ?_
      rcases List.mem_cons.1 hd with rfl | hd
      · exact hab
      · exact lt_trans hab (hlt d hd)
    · split
      · rename_i hab
        exact wf_consCell a v m (wf_tail h) fun d hd => hab ▸ hlt d hd
      · rename_i h1 h2
        refine wf_cons (ih (wf_tail h)) (fun d hd => ?_) (h.2 (b, u) (by simp))
        rcases mem_writeByte m a v d hd with hd | hd
        · rw [hd]; show b < a; omega
        · exact hlt d hd

/-- Two canonical memories that read alike are the same list. -/
theorem ext_of_readByte (m n : Memory) (hm : Memory.wf m) (hn : Memory.wf n)
    (h : ∀ a, readByte m a = readByte n a) : m = n := by
  induction m generalizing n with
  | nil =>
    cases n with
    | nil => rfl
    | cons c n => exact absurd (h c.1).symm (by simpa [readByte] using hn.2 c (by simp))
  | cons c m ih =>
    cases n with
    | nil => exact absurd (h c.1) (by simpa [readByte] using hm.2 c (by simp))
    | cons d n =>
      have hc := hm.2 c (by simp)
      have hd := hn.2 d (by simp)
      have hcm := wf_head_lt hm
      have hdn := wf_head_lt hn
      have key : c.1 = d.1 := by
        rcases lt_trichotomy c.1 d.1 with hlt | he | hlt
        · have h1 := h c.1
          rw [readByte_of_below (d :: n) c.1] at h1
          · exact absurd h1 (by simpa [readByte] using hc)
          · intro e he
            rcases List.mem_cons.1 he with rfl | he
            · exact hlt
            · exact lt_trans hlt (hdn e he)
        · exact he
        · have h1 := h d.1
          rw [readByte_of_below (c :: m) d.1] at h1
          · exact absurd h1.symm (by simpa [readByte] using hd)
          · intro e he
            rcases List.mem_cons.1 he with rfl | he
            · exact hlt
            · exact lt_trans hlt (hcm e he)
      have val : c.2 = d.2 := by simpa [readByte, key] using h c.1
      have : c = d := Prod.ext key val
      subst this
      congr 1
      refine ih n (wf_tail hm) (wf_tail hn) fun a => ?_
      by_cases ha : a = c.1
      · rw [ha, readByte_of_below m c.1 hcm, readByte_of_below n c.1 hdn]
      · simpa [readByte, ha] using h a

/-! ## Several bytes -/

theorem readNat_congr (m m' : Memory) (a n : Nat) (h : ∀ p, a ≤ p → p < a + n → readByte m' p = readByte m p) :
    readNat m' a n = readNat m a n := by
  induction n generalizing a with
  | zero => rfl
  | succ n ih =>
    simp only [readNat]
    rw [h a (by omega) (by omega), ih (a + 1) fun p h1 h2 => h p (by omega) (by omega)]

theorem readNat_lt (m : Memory) (a n : Nat) : readNat m a n < 256 ^ n := by
  induction n generalizing a with
  | zero => simp [readNat]
  | succ n ih =>
    simp only [readNat, pow_succ]
    have := ih (a + 1)
    have := (readByte m a).isLt
    omega

theorem readByte_writeNat_other (m : Memory) (a n v p : Nat) (h : p < a ∨ a + n ≤ p) :
    readByte (writeNat m a n v) p = readByte m p := by
  induction n generalizing m a v with
  | zero => rfl
  | succ n ih =>
    simp only [writeNat]
    rw [ih _ (a + 1) _ (by omega), readByte_writeByte_other m a p _ (by omega)]

theorem wf_writeNat (m : Memory) (a n v : Nat) (h : Memory.wf m) : Memory.wf (writeNat m a n v) := by
  induction n generalizing m a v with
  | zero => exact h
  | succ n ih => exact ih _ _ _ (wf_writeByte m a _ h)

theorem mem_writeNat (m : Memory) (a n v : Nat) : ∀ c ∈ writeNat m a n v, (a ≤ c.1 ∧ c.1 < a + n) ∨ c ∈ m := by
  induction n generalizing m a v with
  | zero => exact fun c hc => .inr hc
  | succ n ih =>
    intro c hc
    rcases ih _ _ _ c hc with h | h
    · exact .inl (by omega)
    · rcases mem_writeByte _ _ _ c h with h | h
      · exact .inl (by omega)
      · exact .inr h

theorem readNat_writeNat (m : Memory) (a n v : Nat) (h : Memory.wf m) :
    readNat (writeNat m a n v) a n = v % 256 ^ n := by
  induction n generalizing m a v with
  | zero => simp [readNat, Nat.mod_one]
  | succ n ih =>
    simp only [readNat, writeNat]
    rw [ih _ _ _ (wf_writeByte m a _ h), readByte_writeNat_other _ _ _ _ a (by omega), readByte_writeByte_same m a _ h,
      BitVec.toNat_ofNat]
    show v % 256 + 256 * (v / 256 % 256 ^ n) = v % 256 ^ (n + 1)
    rw [Nat.pow_succ, Nat.mul_comm (256 ^ n) 256, Nat.mod_mul]

/-! ## Elements -/

theorem eb_pos (f : Fmt) : 0 < eb f := by cases f <;> decide

theorem eb_le (f : Fmt) : eb f ≤ 8 := by cases f <;> decide

theorem elem_congr (f : Fmt) (m m' : Memory) (a : Nat)
    (h : ∀ p, a ≤ p → p < a + eb f → readByte m' p = readByte m p) : elem f m' a = elem f m a := by
  simp only [elem, memRead, readNat_congr m m' a (eb f) h]

theorem readByte_setElem_other (f : Fmt) (m : Memory) (a p : Nat) (v : Pat) (h : p < a ∨ a + eb f ≤ p) :
    readByte (setElem f m a v) p = readByte m p := readByte_writeNat_other m a (eb f) v.toNat p h

/-- A write of one element leaves every disjoint element alone. -/
theorem elem_setElem_other (f : Fmt) (m : Memory) (a p : Nat) (v : Pat) (h : p + eb f ≤ a ∨ a + eb f ≤ p) :
    elem f (setElem f m a v) p = elem f m p :=
  elem_congr f m _ p fun q h1 h2 => readByte_setElem_other f m a q v (by omega)

theorem fits_iff (f : Fmt) (v : Pat) : fits f v = true ↔ v.toNat < 256 ^ eb f := by
  have := v.isLt
  cases f <;> simp only [fits, flen, eb] <;> norm_num

/-- Every element is a pattern of the format. -/
theorem fits_elem (f : Fmt) (m : Memory) (a : Nat) : fits f (elem f m a) = true := by
  rw [fits_iff]
  simp only [elem, memRead, BitVec.toNat_ofNat]
  exact lt_of_le_of_lt (Nat.mod_le _ _) (readNat_lt m a (eb f))

/-- An element written is read back. -/
theorem elem_setElem_same (f : Fmt) (m : Memory) (a : Nat) (v : Pat) (hm : Memory.wf m) (hv : fits f v = true) :
    elem f (setElem f m a v) a = v := by
  simp only [elem, setElem, memRead, memWrite, readNat_writeNat m a (eb f) v.toNat hm]
  rw [Nat.mod_eq_of_lt ((fits_iff f v).1 hv), BitVec.ofNat_toNat, BitVec.setWidth_eq]

theorem wf_setElem (f : Fmt) (m : Memory) (a : Nat) (v : Pat) (h : Memory.wf m) : Memory.wf (setElem f m a v) :=
  wf_writeNat m a (eb f) v.toNat h

theorem wf_memWrite (m : Memory) (a n : Nat) (v : BitVec 64) (h : Memory.wf m) : Memory.wf (memWrite m a n v) :=
  wf_writeNat m a n v.toNat h

theorem mem_setElem (f : Fmt) (m : Memory) (a : Nat) (v : Pat) :
    ∀ c ∈ setElem f m a v, (a ≤ c.1 ∧ c.1 < a + eb f) ∨ c ∈ m := mem_writeNat m a (eb f) v.toNat

theorem elem_setElem_elem (f : Fmt) (m : Memory) (base i j : Nat) (v : Pat) (h : i ≠ j) :
    elem f (setElem f m (elemAddr f base j) v) (elemAddr f base i) = elem f m (elemAddr f base i) := by
  refine elem_setElem_other f m _ _ v ?_
  simp only [elemAddr]
  have := eb_pos f
  rcases lt_or_gt_of_ne h with h | h
  · left
    have : (i + 1) * eb f ≤ j * eb f := Nat.mul_le_mul_right _ h
    rw [Nat.add_mul] at this; omega
  · right
    have : (j + 1) * eb f ≤ i * eb f := Nat.mul_le_mul_right _ h
    rw [Nat.add_mul] at this; omega

theorem reset_dmem_wf (b : Build) : Memory.wf (State.powerOn b).dmem := by
  simp [State.powerOn, Memory.wf]

theorem reset_wf : Memory.wf State.reset.dmem := reset_dmem_wf _

end Sys2Proof.Machine
end

