-- ==== Sys2Proof/Laws/Float.lean ====
section
/-! SUPPORT. Every primitive and every function of the units answers a pattern of its format. -/

namespace Sys2Proof.Machine

theorem infMag_lt (f : Fmt) : infMag f < signWeight f := by cases f <;> decide

theorem signWeight_double (f : Fmt) : signWeight f + signWeight f = 2 ^ flen f := by cases f <;> decide

theorem two_pow_flen_le (f : Fmt) : 2 ^ flen f ≤ 2 ^ 64 := by cases f <;> decide

theorem signWeight_pos (f : Fmt) : 0 < signWeight f := by cases f <;> decide

theorem magOf_lt (f : Fmt) (v : Pat) : magOf f v < signWeight f := Nat.mod_lt _ (signWeight_pos f)

theorem fits_pack (f : Fmt) (neg : Bool) (mag : Nat) (h : mag < signWeight f) : fits f (pack f neg mag) = true := by
  have h1 := signWeight_double f
  simp only [fits, pack, BitVec.toNat_ofNat, decide_eq_true_eq]
  refine lt_of_le_of_lt (Nat.mod_le _ _) ?_
  split <;> omega

theorem fits_zero (f : Fmt) : fits f (zero f) = true := by cases f <;> decide
theorem fits_one (f : Fmt) : fits f (one f) = true := by cases f <;> decide
theorem fits_two (f : Fmt) : fits f (two f) = true := by cases f <;> decide
theorem fits_cnan (f : Fmt) : fits f (cnan f) = true := by cases f <;> decide

theorem fits_constValue (f : Fmt) (k : ConstSel) : fits f (constValue f k) = true := by
  cases f <;> cases k <;> decide

theorem roundMag_le (f : Fmt) (m : Nat) (e : Int) (st : Bool) : roundMag f m e st ≤ infMag f := by
  unfold roundMag
  split
  · exact Nat.zero_le _
  · exact Nat.min_le_right _ _

theorem fits_roundPat (f : Fmt) (neg : Bool) (m : Nat) (e : Int) (st : Bool) : fits f (roundPat f neg m e st) = true :=
  fits_pack f neg _ (lt_of_le_of_lt (roundMag_le f m e st) (infMag_lt f))

theorem fits_infPat (f : Fmt) (neg : Bool) : fits f (infPat f neg) = true := fits_pack f neg _ (infMag_lt f)

theorem fits_pack_zero (f : Fmt) (neg : Bool) : fits f (pack f neg 0) = true := fits_pack f neg 0 (signWeight_pos f)

theorem fits_sumFin (f : Fmt) (na : Bool) (ma : Nat) (ea : Int) (nb : Bool) (mb : Nat) (e₂ : Int) :
    fits f (sumFin f na ma ea nb mb e₂) = true := by
  simp only [sumFin]
  split
  · exact fits_pack_zero f _
  · exact fits_roundPat f _ _ _ _

theorem fits_fadd (f : Fmt) (a b : Pat) : fits f (fadd f a b) = true := by
  unfold fadd
  split <;> try split
  all_goals first | exact fits_cnan f | exact fits_infPat f _ | exact fits_sumFin f _ _ _ _ _ _

theorem fits_flipSign (f : Fmt) (a : Pat) : fits f (flipSign f a) = true := fits_pack f _ _ (magOf_lt f a)

theorem fits_fsub (f : Fmt) (a b : Pat) : fits f (fsub f a b) = true := fits_fadd f a _

theorem fits_fmul (f : Fmt) (a b : Pat) : fits f (fmul f a b) = true := by
  unfold fmul
  split <;> try split
  all_goals first | exact fits_cnan f | exact fits_infPat f _ | exact fits_roundPat f _ _ _ _

theorem fits_divFin (f : Fmt) (neg : Bool) (ma : Nat) (ea : Int) (mb : Nat) (e₂ : Int) :
    fits f (divFin f neg ma ea mb e₂) = true := fits_roundPat f _ _ _ _

theorem fits_fdiv (f : Fmt) (a b : Pat) : fits f (fdiv f a b) = true := by
  unfold fdiv
  split
  all_goals try split
  all_goals try split
  all_goals first | exact fits_cnan f | exact fits_infPat f _ | exact fits_pack_zero f _ | exact fits_divFin f _ _ _ _ _

theorem fits_addInf (f : Fmt) (neg : Bool) (z : Num) : fits f (ffma.addInf f neg z) = true := by
  unfold ffma.addInf
  split <;> try split
  all_goals first | exact fits_cnan f | exact fits_infPat f _

theorem fits_ffma (f : Fmt) (a b c : Pat) : fits f (ffma f a b c) = true := by
  unfold ffma
  generalize unpack f a = p
  generalize unpack f b = q
  generalize unpack f c = r
  cases p <;> cases q <;> cases r <;> dsimp only <;> try split
  all_goals first
    | exact fits_cnan f | exact fits_infPat f _ | exact fits_sumFin f _ _ _ _ _ _ | exact fits_addInf f _ _

theorem fits_sqrtFin (f : Fmt) (m : Nat) (e : Int) : fits f (sqrtFin f m e) = true := by
  unfold sqrtFin
  exact fits_roundPat f _ _ _ _

theorem fits_fsqrt (f : Fmt) (a : Pat) : fits f (fsqrt f a) = true := by
  unfold fsqrt
  split
  · exact fits_cnan f
  · split
    · exact fits_cnan f
    · exact fits_infPat f _
  · split
    · exact fits_pack_zero f _
    · split
      · exact fits_cnan f
      · exact fits_sqrtFin f _ _

theorem fits_fneg (f : Fmt) (a : Pat) : fits f (fneg f a) = true := by
  unfold fneg
  split
  · exact fits_cnan f
  · exact fits_flipSign f a

theorem fits_fabs (f : Fmt) (a : Pat) : fits f (fabs f a) = true := by
  unfold fabs
  split
  · exact fits_cnan f
  · exact fits_pack f _ _ (magOf_lt f a)

theorem fits_ffmod (f : Fmt) (a b : Pat) : fits f (ffmod f a b) = true := by
  unfold ffmod
  split <;> try split
  all_goals first | exact fits_cnan f | exact fits_pack f _ _ (magOf_lt f a) | exact fits_roundPat f _ _ _ _

theorem fits_convert (f g : Fmt) (a : Pat) : fits g (convert f g a) = true := by
  unfold convert
  split
  all_goals first | exact fits_cnan g | exact fits_infPat g _ | exact fits_roundPat g _ _ _ _

/-! ## The reference functions -/

theorem fits_fromFixed (f : Fmt) (neg : Bool) (w n : Nat) : fits f (fromFixed f neg w n) = true :=
  fits_roundPat f _ _ _ _

theorem fits_tanhFixed (f : Fmt) (neg : Bool) (m : Nat) (e : Int) : fits f (tanhFixed f neg m e) = true := by
  unfold tanhFixed
  split
  · exact fits_pack f _ _ (magOf_lt f _)
  · exact fits_fromFixed f _ _ _

theorem fits_log2Fixed (f : Fmt) (m : Nat) (e : Int) : fits f (log2Fixed f m e) = true := fits_fromFixed f _ _ _

theorem fits_nearestRef (fn : RefFn) (f : Fmt) (x : Pat) : fits f (nearestRef fn f x) = true := by
  unfold nearestRef
  split
  all_goals try split
  all_goals try split
  all_goals first
    | exact fits_cnan f | exact fits_infPat f _ | exact fits_pack_zero f _ | exact fits_one f
    | exact fits_pack f _ _ (magOf_lt f _) | exact fits_fromFixed f _ _ _ | exact fits_tanhFixed f _ _ _

theorem fits_cut (f : Fmt) (v : Pat) : fits f (cut f v) = true := by
  have h := two_pow_flen_le f
  simp only [fits, cut, BitVec.toNat_ofNat, decide_eq_true_eq]
  exact lt_of_le_of_lt (Nat.mod_le _ _) (Nat.mod_lt _ (by positivity))

/-- A reference function answers a pattern of the build's format (42_approximation.md R181). -/
theorem fits_refApply (b : Build) (fn : RefFn) (x : Pat) : fits b.fmt (refApply b fn x) = true := by
  unfold refApply
  split
  · exact fits_nearestRef fn b.fmt x
  · exact fits_cut b.fmt _

/-! ## The functions of the units -/

theorem fits_horner (f : Fmt) (cs : List Pat) (x : Pat) (h : ∀ c ∈ cs, fits f c = true) :
    fits f (horner f cs x) = true := by
  match cs with
  | [] => exact fits_zero f
  | [c] => exact h c (by simp)
  | _ :: _ :: _ => exact fits_fadd f _ _

theorem estrinPairs_fits (f : Fmt) (x : Pat) (cs : List Pat) (h : ∀ c ∈ cs, fits f c = true) :
    ∀ c ∈ estrinPairs f x cs, fits f c = true := by
  match cs with
  | [] => exact h
  | [_] => exact h
  | a :: b :: cs =>
    intro c hc
    rcases List.mem_cons.1 hc with rfl | hc
    · exact fits_fadd f _ _
    · exact estrinPairs_fits f x cs (fun d hd => h d (by simp [hd])) c hc

theorem padEven_fits (f : Fmt) (cs : List Pat) (h : ∀ c ∈ cs, fits f c = true) : ∀ c ∈ padEven f cs, fits f c = true := by
  unfold padEven
  split
  · intro c hc
    rcases List.mem_append.1 hc with hc | hc
    · exact h c hc
    · simp only [List.mem_singleton] at hc
      exact hc ▸ fits_zero f
  · exact h

theorem fits_estrinLevels (f : Fmt) (k : Nat) (cs : List Pat) (x : Pat) (h : ∀ c ∈ cs, fits f c = true) :
    fits f (estrinLevels f k cs x) = true := by
  induction k generalizing cs x with
  | zero =>
    match cs with
    | [] => exact fits_zero f
    | [c] => exact h c (by simp)
    | c :: _ :: _ => exact h c (by simp)
  | succ k ih =>
    match cs with
    | [] => exact fits_zero f
    | [c] => exact h c (by simp)
    | c :: d :: cs => exact ih _ _ (estrinPairs_fits f x _ (padEven_fits f _ h))

theorem fits_estrin (f : Fmt) (cs : List Pat) (x : Pat) (h : ∀ c ∈ cs, fits f c = true) :
    fits f (estrin f cs x) = true := fits_estrinLevels f _ cs x h

theorem fits_rat (f : Fmt) (num den : List Pat) (x : Pat) : fits f (rat f num den x) = true := fits_fdiv f _ _

theorem fits_fastEval (f : Fmt) (t : Table) (x : Pat) : fits f (fastEval f t x) = true := fits_rat f _ _ x

theorem fits_log2BitFn (f : Fmt) (t : Table) (x : Pat) : fits f (log2BitFn f t x) = true := by
  cases f
  · exact fits_fadd .b32 _ _
  · exact fits_convert .b32 .b64 _

theorem elems_fits (f : Fmt) (m : Memory) (base n : Nat) (c : Pat) (h : c ∈ elems f m base n) : fits f c = true := by
  obtain ⟨j, -, rfl⟩ := List.mem_map.1 h
  exact fits_elem f m _

theorem fits_minSel (f : Fmt) (a b : Pat) (ha : fits f a = true) (hb : fits f b = true) : fits f (minSel f a b) = true := by
  unfold minSel; split <;> assumption

theorem fits_maxSel (f : Fmt) (a b : Pat) (ha : fits f a = true) (hb : fits f b = true) : fits f (maxSel f a b) = true := by
  unfold maxSel; split <;> assumption

theorem fits_clipSel (f : Fmt) (v lo hi : Pat) (hv : fits f v = true) (hl : fits f lo = true) (hh : fits f hi = true) :
    fits f (clipSel f v lo hi) = true := by
  unfold clipSel
  split
  · exact hl
  · split
    · exact hh
    · exact hv

/-- The five derived coefficients are patterns of the format (43_biquad.md R232). -/
theorem bqDirect_fits (f : Fmt) (resp : BqResp) (k q : Pat) :
    fits f (bqDirect f resp k q).b0 = true ∧ fits f (bqDirect f resp k q).b1 = true ∧
      fits f (bqDirect f resp k q).b2 = true ∧ fits f (bqDirect f resp k q).a1 = true ∧
      fits f (bqDirect f resp k q).a2 = true := by
  cases resp <;>
    simp only [bqDirect, bqA1, bqA2, fits_fdiv, fits_fmul, fits_fneg, fits_zero, fits_one, and_self]

theorem fits_bqF (f : Fmt) (k : BqCoef) (x0 x1 x2 y1 y2 : Pat) : fits f (bqF f k x0 x1 x2 y1 y2) = true :=
  fits_fsub f _ _

/-- The three outputs of one sample are patterns of the format (44_svf.md R283). -/
theorem svfStep_fits (b : Build) (k : SvfCoef) (v : SvfChan) (x : Pat) :
    fits b.fmt (svfStep b k v x).h = true ∧ fits b.fmt (svfStep b k v x).b = true ∧
      fits b.fmt (svfStep b k v x).l = true :=
  ⟨fits_fsub _ _ _, fits_fadd _ _ _, fits_fadd _ _ _⟩

theorem fits_svfPick (b : Build) (o : SvfOut) (k : SvfCoef) (v : SvfChan) (x : Pat) :
    fits b.fmt (svfPick o (svfStep b k v x)) = true := by
  have h := svfStep_fits b k v x
  cases o
  · exact h.1
  · exact h.2.1
  · exact h.2.2

theorem fits_svfF1 (b : Build) (fs fc : Pat) : fits b.fmt (svfF1 b fs fc) = true := fits_fmul _ _ _

theorem fits_svfQ1 (b : Build) (q : Pat) : fits b.fmt (svfQ1 b q) = true := fits_fdiv _ _ _

end Sys2Proof.Machine
end

