-- ==== Sys2Proof/Laws/Loops.lean ====
section
/-! SUPPORT. What the buffer loops of the two filters leave: the outputs of the list forms of Safety.lean in the buffer, the final
channel state, every byte outside the buffer, the canonical form. -/

namespace Sys2Proof.Machine

/-! ## Sequences of elements -/

@[simp] theorem elems_zero (f : Fmt) (m : Memory) (a : Nat) : elems f m a 0 = [] := rfl

theorem elemAddr_zero (f : Fmt) (a : Nat) : elemAddr f a 0 = a := by simp [elemAddr]

theorem elemAddr_succ (f : Fmt) (a n : Nat) : elemAddr f a (n + 1) = elemAddr f (a + eb f) n := by
  simp only [elemAddr, Nat.add_mul]; omega

theorem elems_succ (f : Fmt) (m : Memory) (a n : Nat) : elems f m a (n + 1) = elem f m a :: elems f m (a + eb f) n := by
  simp only [elems, List.range_succ_eq_map, List.map_cons, List.map_map, elemAddr_zero]
  congr 1
  exact List.map_congr_left fun j _ => by simp only [Function.comp_apply, elemAddr_succ]

@[simp] theorem elems_length (f : Fmt) (m : Memory) (a n : Nat) : (elems f m a n).length = n := by simp [elems]

theorem elems_congr (f : Fmt) (m m' : Memory) (a n : Nat)
    (h : ∀ p, a ≤ p → p < a + n * eb f → readByte m' p = readByte m p) : elems f m' a n = elems f m a n := by
  induction n generalizing a with
  | zero => rfl
  | succ n ih =>
    rw [Nat.add_mul] at h
    rw [elems_succ, elems_succ, elem_congr f m m' a fun p h1 h2 => h p h1 (by omega),
      ih (a + eb f) fun p h1 h2 => h p (by omega) (by omega)]

theorem elems_getD (f : Fmt) (m : Memory) (a n j : Nat) (h : j < n) (z : Pat) :
    (elems f m a n).getD j z = elem f m (elemAddr f a j) := by
  simp [elems, List.getD, h]

/-! ## BQ_BUF (43_biquad.md R251) -/

theorem bqBufLoop_outside (f : Fmt) (k : BqCoef) (n a : Nat) (d : BqDelay) (m : Memory) (p : Nat)
    (h : p < a ∨ a + n * eb f ≤ p) : readByte (bqBufLoop f k n a d m).2 p = readByte m p := by
  induction n generalizing a d m with
  | zero => rfl
  | succ n ih =>
    rw [Nat.add_mul] at h
    simp only [bqBufLoop]
    rw [ih _ _ _ (by omega), readByte_setElem_other f m a p _ (by omega)]

theorem wf_bqBufLoop (f : Fmt) (k : BqCoef) (n a : Nat) (d : BqDelay) (m : Memory) (h : Memory.wf m) :
    Memory.wf (bqBufLoop f k n a d m).2 := by
  induction n generalizing a d m with
  | zero => exact h
  | succ n ih => exact ih _ _ _ (wf_setElem f m a _ h)

theorem mem_bqBufLoop (f : Fmt) (k : BqCoef) (n a : Nat) (d : BqDelay) (m : Memory) :
    ∀ c ∈ (bqBufLoop f k n a d m).2, (a ≤ c.1 ∧ c.1 < a + n * eb f) ∨ c ∈ m := by
  induction n generalizing a d m with
  | zero => exact fun c hc => .inr hc
  | succ n ih =>
    intro c hc
    rw [Nat.add_mul]
    rcases ih _ _ _ c hc with h | h
    · exact .inl (by omega)
    · rcases mem_setElem f m a _ c h with h | h
      · exact .inl (by omega)
      · exact .inr h

/-- The loop leaves the outputs of BQ_STEP on the elements in order, and the history after the last. -/
theorem bqBufLoop_samples (f : Fmt) (k : BqCoef) (n a : Nat) (d : BqDelay) (m : Memory) (h : Memory.wf m) :
    (elems f (bqBufLoop f k n a d m).2 a n, (bqBufLoop f k n a d m).1) = bqSamples f k d (elems f m a n) := by
  induction n generalizing a d m with
  | zero => rfl
  | succ n ih =>
    have hw := wf_setElem f m a (bqOut f k d (elem f m a)) h
    have hrest : elems f (setElem f m a (bqOut f k d (elem f m a))) (a + eb f) n = elems f m (a + eb f) n :=
      elems_congr f m _ _ n fun p h1 _ => readByte_setElem_other f m a p _ (by omega)
    have hi := ih (a + eb f) (bqShift d (elem f m a) (bqOut f k d (elem f m a))) _ hw
    rw [hrest] at hi
    have hhead : elem f (bqBufLoop f k (n + 1) a d m).2 a = bqOut f k d (elem f m a) := by
      refine Eq.trans (elem_congr f (setElem f m a (bqOut f k d (elem f m a))) _ a fun p h1 h2 => ?_)
        (elem_setElem_same f m a _ h (fits_bqF f k _ _ _ _ _))
      exact bqBufLoop_outside f k n _ _ _ p (by omega)
    rw [elems_succ, elems_succ, hhead]
    simp only [bqSamples]
    change (_ :: elems f (bqBufLoop f k n (a + eb f) (bqShift d (elem f m a) (bqOut f k d (elem f m a)))
      (setElem f m a (bqOut f k d (elem f m a)))).2 (a + eb f) n, _) = _
    have h1 := congrArg Prod.fst hi
    have h2 := congrArg Prod.snd hi
    simp only at h1 h2
    rw [h1]
    exact Prod.ext rfl h2

theorem bqBufLoop_fits (f : Fmt) (k : BqCoef) (n a : Nat) (d : BqDelay) (m : Memory) (h : delayFits f d) :
    delayFits f (bqBufLoop f k n a d m).1 := by
  induction n generalizing a d m with
  | zero => exact h
  | succ n ih => exact ih _ _ _ ⟨fits_elem f m a, h.1, fits_bqF f k _ _ _ _ _, h.2.2.1⟩

/-! ## SVF_BUF (44_svf.md R291) -/

theorem svfBufLoop_outside (b : Build) (k : SvfCoef) (o : SvfOut) (n a : Nat) (v : SvfChan) (m : Memory) (p : Nat)
    (h : p < a ∨ a + n * eb b.fmt ≤ p) : readByte (svfBufLoop b k o n a v m).2 p = readByte m p := by
  induction n generalizing a v m with
  | zero => rfl
  | succ n ih =>
    rw [Nat.add_mul] at h
    simp only [svfBufLoop]
    rw [ih _ _ _ (by omega), readByte_setElem_other b.fmt m a p _ (by omega)]

theorem wf_svfBufLoop (b : Build) (k : SvfCoef) (o : SvfOut) (n a : Nat) (v : SvfChan) (m : Memory) (h : Memory.wf m) :
    Memory.wf (svfBufLoop b k o n a v m).2 := by
  induction n generalizing a v m with
  | zero => exact h
  | succ n ih => exact ih _ _ _ (wf_setElem b.fmt m a _ h)

theorem mem_svfBufLoop (b : Build) (k : SvfCoef) (o : SvfOut) (n a : Nat) (v : SvfChan) (m : Memory) :
    ∀ c ∈ (svfBufLoop b k o n a v m).2, (a ≤ c.1 ∧ c.1 < a + n * eb b.fmt) ∨ c ∈ m := by
  induction n generalizing a v m with
  | zero => exact fun c hc => .inr hc
  | succ n ih =>
    intro c hc
    rw [Nat.add_mul]
    rcases ih _ _ _ c hc with h | h
    · exact .inl (by omega)
    · rcases mem_setElem b.fmt m a _ c h with h | h
      · exact .inl (by omega)
      · exact .inr h

/-- The loop leaves the selected outputs of SVF_STEP on the elements in order, and the channel state after the last. -/
theorem svfBufLoop_samples (b : Build) (k : SvfCoef) (o : SvfOut) (n a : Nat) (v : SvfChan) (m : Memory)
    (h : Memory.wf m) :
    (elems b.fmt (svfBufLoop b k o n a v m).2 a n, (svfBufLoop b k o n a v m).1) =
      svfSamples b k o v (elems b.fmt m a n) := by
  induction n generalizing a v m with
  | zero => rfl
  | succ n ih =>
    have hw := wf_setElem b.fmt m a (svfPick o (svfStep b k v (elem b.fmt m a))) h
    have hrest : elems b.fmt (setElem b.fmt m a (svfPick o (svfStep b k v (elem b.fmt m a)))) (a + eb b.fmt) n =
        elems b.fmt m (a + eb b.fmt) n :=
      elems_congr b.fmt m _ _ n fun p h1 _ => readByte_setElem_other b.fmt m a p _ (by omega)
    have hi := ih (a + eb b.fmt) (svfStep b k v (elem b.fmt m a)) _ hw
    rw [hrest] at hi
    have hhead : elem b.fmt (svfBufLoop b k o (n + 1) a v m).2 a = svfPick o (svfStep b k v (elem b.fmt m a)) := by
      refine Eq.trans (elem_congr b.fmt (setElem b.fmt m a (svfPick o (svfStep b k v (elem b.fmt m a)))) _ a
        fun p h1 h2 => ?_) (elem_setElem_same b.fmt m a _ h (fits_svfPick b o k v _))
      exact svfBufLoop_outside b k o n _ _ _ p (by omega)
    rw [elems_succ, elems_succ, hhead]
    simp only [svfSamples]
    change (_ :: elems b.fmt (svfBufLoop b k o n (a + eb b.fmt) (svfStep b k v (elem b.fmt m a))
      (setElem b.fmt m a (svfPick o (svfStep b k v (elem b.fmt m a))))).2 (a + eb b.fmt) n, _) = _
    have h1 := congrArg Prod.fst hi
    have h2 := congrArg Prod.snd hi
    simp only at h1 h2
    rw [h1]
    exact Prod.ext rfl h2

theorem svfBufLoop_fits (b : Build) (k : SvfCoef) (o : SvfOut) (n a : Nat) (v : SvfChan) (m : Memory)
    (h : svfChanFits b.fmt v) : svfChanFits b.fmt (svfBufLoop b k o n a v m).1 := by
  induction n generalizing a v m with
  | zero => exact h
  | succ n ih => exact ih _ _ _ (svfStep_fits b k v _)

/-! ## BQ_OPT and BQ_OPT2 (43_biquad.md R252, R253): canonical form, bounds and bytes outside -/

theorem bqOptLoop_outside (f : Fmt) (k : BqCoef) (base j n : Nat) (p1 p2 : Pat) (m : Memory) (p : Nat)
    (h : p < elemAddr f base n ∨ elemAddr f base (n + j) ≤ p) :
    readByte (bqOptLoop f k base j n p1 p2 m).2 p = readByte m p := by
  induction j generalizing n p1 p2 m with
  | zero => rfl
  | succ j ih =>
    have h1 : elemAddr f base (n + 1) = elemAddr f base n + eb f := by simp only [elemAddr, Nat.add_mul]; omega
    have h2 : elemAddr f base n + eb f ≤ elemAddr f base (n + (j + 1)) := by
      simp only [elemAddr, Nat.add_mul]; nlinarith [eb_pos f]
    simp only [bqOptLoop]
    rw [ih (n + 1) _ _ _ (by rw [show n + 1 + j = n + (j + 1) by omega]; omega),
      readByte_setElem_other f m _ p _ (by omega)]

theorem wf_bqOptLoop (f : Fmt) (k : BqCoef) (base j n : Nat) (p1 p2 : Pat) (m : Memory) (h : Memory.wf m) :
    Memory.wf (bqOptLoop f k base j n p1 p2 m).2 := by
  induction j generalizing n p1 p2 m with
  | zero => exact h
  | succ j ih => exact ih _ _ _ _ (wf_setElem f m _ _ h)

theorem bqOpt2Loop_outside (f : Fmt) (k : BqCoef) (inp out j n : Nat) (m : Memory) (p : Nat)
    (h : p < elemAddr f out n ∨ elemAddr f out (n + j) ≤ p) :
    readByte (bqOpt2Loop f k inp out j n m) p = readByte m p := by
  induction j generalizing n m with
  | zero => rfl
  | succ j ih =>
    have h1 : elemAddr f out (n + 1) = elemAddr f out n + eb f := by simp only [elemAddr, Nat.add_mul]; omega
    have h2 : elemAddr f out n + eb f ≤ elemAddr f out (n + (j + 1)) := by
      simp only [elemAddr, Nat.add_mul]; nlinarith [eb_pos f]
    simp only [bqOpt2Loop]
    rw [ih (n + 1) _ (by rw [show n + 1 + j = n + (j + 1) by omega]; omega),
      readByte_setElem_other f m _ p _ (by omega)]

theorem wf_bqOpt2Loop (f : Fmt) (k : BqCoef) (inp out j n : Nat) (m : Memory) (h : Memory.wf m) :
    Memory.wf (bqOpt2Loop f k inp out j n m) := by
  induction j generalizing n m with
  | zero => exact h
  | succ j ih => exact ih _ _ (wf_setElem f m _ _ h)

theorem mem_bqOptLoop (f : Fmt) (k : BqCoef) (base j n : Nat) (p1 p2 : Pat) (m : Memory) :
    ∀ c ∈ (bqOptLoop f k base j n p1 p2 m).2, (base ≤ c.1 ∧ c.1 < elemAddr f base (n + j)) ∨ c ∈ m := by
  induction j generalizing n p1 p2 m with
  | zero => exact fun c hc => .inr hc
  | succ j ih =>
    intro c hc
    have h0 : base ≤ elemAddr f base n := by simp only [elemAddr]; omega
    have h2 : elemAddr f base n + eb f ≤ elemAddr f base (n + (j + 1)) := by
      simp only [elemAddr, Nat.add_mul]; nlinarith [eb_pos f]
    rcases ih (n + 1) _ _ _ c hc with h | h
    · rw [show n + 1 + j = n + (j + 1) by omega] at h; exact .inl h
    · rcases mem_setElem f m _ _ c h with h | h
      · exact .inl (by omega)
      · exact .inr h

theorem mem_bqOpt2Loop (f : Fmt) (k : BqCoef) (inp out j n : Nat) (m : Memory) :
    ∀ c ∈ bqOpt2Loop f k inp out j n m, (out ≤ c.1 ∧ c.1 < elemAddr f out (n + j)) ∨ c ∈ m := by
  induction j generalizing n m with
  | zero => exact fun c hc => .inr hc
  | succ j ih =>
    intro c hc
    have h0 : out ≤ elemAddr f out n := by simp only [elemAddr]; omega
    have h2 : elemAddr f out n + eb f ≤ elemAddr f out (n + (j + 1)) := by
      simp only [elemAddr, Nat.add_mul]; nlinarith [eb_pos f]
    rcases ih (n + 1) _ c hc with h | h
    · rw [show n + 1 + j = n + (j + 1) by omega] at h; exact .inl h
    · rcases mem_setElem f m _ _ c h with h | h
      · exact .inl (by omega)
      · exact .inr h

theorem elemAddr_two (f : Fmt) (a : Nat) : elemAddr f a 0 = a ∧ elemAddr f a 1 = a + eb f := by
  simp [elemAddr]

/-- BQ_OPT on `n ≥ 2` samples writes inside its buffer only. -/
theorem bqOptRun_outside (f : Fmt) (k : BqCoef) (base n : Nat) (d : BqDelay) (m : Memory) (p : Nat) (hn : 2 ≤ n)
    (h : p < base ∨ base + n * eb f ≤ p) : readByte (bqOptRun f k base n d m).2 p = readByte m p := by
  have h2 : base + 2 * eb f ≤ base + n * eb f := by nlinarith [eb_pos f]
  have h3 : elemAddr f base 2 = base + 2 * eb f := rfl
  have h4 : elemAddr f base (2 + (n - 2)) = base + n * eb f := by rw [show 2 + (n - 2) = n by omega]; rfl
  have := elemAddr_two f base
  simp only [bqOptRun]
  rw [bqOptLoop_outside f k base _ _ _ _ _ p (by omega), readByte_setElem_other f _ _ p _ (by omega),
    readByte_setElem_other f _ _ p _ (by omega)]

theorem wf_bqOptRun (f : Fmt) (k : BqCoef) (base n : Nat) (d : BqDelay) (m : Memory) (h : Memory.wf m) :
    Memory.wf (bqOptRun f k base n d m).2 :=
  wf_bqOptLoop f k base _ _ _ _ _ (wf_setElem f _ _ _ (wf_setElem f _ _ _ h))

theorem mem_bqOptRun (f : Fmt) (k : BqCoef) (base n : Nat) (d : BqDelay) (m : Memory) (hn : 2 ≤ n) :
    ∀ c ∈ (bqOptRun f k base n d m).2, (base ≤ c.1 ∧ c.1 < base + n * eb f) ∨ c ∈ m := by
  intro c hc
  have h2 : base + 2 * eb f ≤ base + n * eb f := by nlinarith [eb_pos f]
  have h4 : elemAddr f base (2 + (n - 2)) = base + n * eb f := by rw [show 2 + (n - 2) = n by omega]; rfl
  have := elemAddr_two f base
  rcases mem_bqOptLoop f k base _ _ _ _ _ c hc with h | h
  · exact .inl (by omega)
  · rcases mem_setElem f _ _ _ c h with h | h
    · exact .inl (by omega)
    · rcases mem_setElem f _ _ _ c h with h | h
      · exact .inl (by omega)
      · exact .inr h

theorem bqOptRun_fits (f : Fmt) (k : BqCoef) (base n : Nat) (d : BqDelay) (m : Memory) :
    fits f (bqOptRun f k base n d m).1.y1 = true ∧ fits f (bqOptRun f k base n d m).1.y2 = true :=
  ⟨fits_elem f _ _, fits_elem f _ _⟩

/-- BQ_OPT2 on `n ≥ 2` samples writes inside its output buffer only. -/
theorem bqOpt2Run_outside (f : Fmt) (k : BqCoef) (inp out n : Nat) (d : BqDelay) (m : Memory) (p : Nat) (hn : 2 ≤ n)
    (h : p < out ∨ out + n * eb f ≤ p) : readByte (bqOpt2Run f k inp out n d m).2 p = readByte m p := by
  have h2 : out + 2 * eb f ≤ out + n * eb f := by nlinarith [eb_pos f]
  have h3 : elemAddr f out 2 = out + 2 * eb f := rfl
  have h4 : elemAddr f out (2 + (n - 2)) = out + n * eb f := by rw [show 2 + (n - 2) = n by omega]; rfl
  have := elemAddr_two f out
  simp only [bqOpt2Run]
  rw [bqOpt2Loop_outside f k inp out _ _ _ p (by omega), readByte_setElem_other f _ _ p _ (by omega),
    readByte_setElem_other f _ _ p _ (by omega)]

theorem wf_bqOpt2Run (f : Fmt) (k : BqCoef) (inp out n : Nat) (d : BqDelay) (m : Memory) (h : Memory.wf m) :
    Memory.wf (bqOpt2Run f k inp out n d m).2 :=
  wf_bqOpt2Loop f k inp out _ _ _ (wf_setElem f _ _ _ (wf_setElem f _ _ _ h))

theorem mem_bqOpt2Run (f : Fmt) (k : BqCoef) (inp out n : Nat) (d : BqDelay) (m : Memory) (hn : 2 ≤ n) :
    ∀ c ∈ (bqOpt2Run f k inp out n d m).2, (out ≤ c.1 ∧ c.1 < out + n * eb f) ∨ c ∈ m := by
  intro c hc
  have h2 : out + 2 * eb f ≤ out + n * eb f := by nlinarith [eb_pos f]
  have h4 : elemAddr f out (2 + (n - 2)) = out + n * eb f := by rw [show 2 + (n - 2) = n by omega]; rfl
  have := elemAddr_two f out
  rcases mem_bqOpt2Loop f k inp out _ _ _ c hc with h | h
  · exact .inl (by omega)
  · rcases mem_setElem f _ _ _ c h with h | h
    · exact .inl (by omega)
    · rcases mem_setElem f _ _ _ c h with h | h
      · exact .inl (by omega)
      · exact .inr h

/-- The history BQ_OPT2 leaves is read back from the buffers. -/
theorem bqOpt2Run_fits (f : Fmt) (k : BqCoef) (inp out n : Nat) (d : BqDelay) (m : Memory) :
    delayFits f (bqOpt2Run f k inp out n d m).1 :=
  ⟨fits_elem f _ _, fits_elem f _ _, fits_elem f _ _, fits_elem f _ _⟩

end Sys2Proof.Machine
end

