-- ==== Sys2Proof/Laws/PerInstr.lean ====
section
/-! SUPPORT. Lemmas made per instruction. `RowMatch`: the word of a command selects the row of the opcode map that has its
mnemonic (30_encoding.md R116). -/

namespace Sys2Proof.Laws.RowMatch

/-- The row named as the command is selected by the command's word. -/
def Statement (i : Instr) : Prop :=
  ∃ row ∈ opcodeRows, row.mnemonic = i.mnemonic ∧ encode i &&& row.mask = row.pattern

theorem of_fields (i : Instr) (row : OpcodeRow) (hm : row ∈ opcodeRows) (hn : row.mnemonic = i.mnemonic)
    (h : fieldsOf (encode i &&& row.mask) = fieldsOf row.pattern) : Statement i :=
  ⟨row, hm, hn, by rw [← word_fields (encode i &&& row.mask), h, word_fields]⟩

theorem nop : Statement (.nop) := by
  refine of_fields _ ⟨"NOP", 0x00000000, 0xFFFFFFFF⟩ (by decide) rfl ?_
  refine fields_and_eq _ _ _ ?_
  simp [encodeFields, fmtR, fieldsOf]

theorem setr (rd : RReg) (imm : BitVec 16) : Statement (.setr rd imm) := by
  refine of_fields _ ⟨"SETR", 0x01000000, 0xFF0F0000⟩ (by decide) rfl ?_
  refine fields_and_eq _ _ _ ?_
  simp [encodeFields, fmtI, fieldsOf]

theorem setrh (rd : RReg) (imm : BitVec 16) : Statement (.setrh rd imm) := by
  refine of_fields _ ⟨"SETRH", 0x02000000, 0xFF0F0000⟩ (by decide) rfl ?_
  refine fields_and_eq _ _ _ ?_
  simp [encodeFields, fmtI, fieldsOf]

theorem addri (rd : RReg) (ra : RReg) (imm : BitVec 16) : Statement (.addri rd ra imm) := by
  refine of_fields _ ⟨"ADDRI", 0x03000000, 0xFF000000⟩ (by decide) rfl ?_
  refine fields_and_eq _ _ _ ?_
  simp [encodeFields, fmtI, fieldsOf]

theorem ld (xd : XReg) (ra : RReg) (imm : BitVec 16) : Statement (.ld xd ra imm) := by
  refine of_fields _ ⟨"LD", 0x04000000, 0xFF000000⟩ (by decide) rfl ?_
  refine fields_and_eq _ _ _ ?_
  simp [encodeFields, fmtI, fieldsOf]

theorem st (xs : XReg) (ra : RReg) (imm : BitVec 16) : Statement (.st xs ra imm) := by
  refine of_fields _ ⟨"ST", 0x05000000, 0xFF000000⟩ (by decide) rfl ?_
  refine fields_and_eq _ _ _ ?_
  simp [encodeFields, fmtI, fieldsOf]

theorem mov (xd : XReg) (xs : XReg) : Statement (.mov xd xs) := by
  refine of_fields _ ⟨"MOV", 0x06000000, 0xFF00FFFF⟩ (by decide) rfl ?_
  refine fields_and_eq _ _ _ ?_
  simp [encodeFields, fmtR, fieldsOf]

theorem mfc (xd : XReg) (csr : Csr) (ch : Chan) : Statement (.mfc xd csr ch) := by
  refine of_fields _ ⟨"MFC", 0x08000000, 0xFF00FF00⟩ (by decide) rfl ?_
  refine fields_and_eq _ _ _ ?_
  simp [encodeFields, fmtR, fieldsOf]

theorem polyHorner (xd : XReg) (xa : XReg) (rb : RReg) (n : BitVec 8) : Statement (.polyHorner xd xa rb n) := by
  refine of_fields _ ⟨"POLY.HORNER", 0x10000000, 0xFF000F00⟩ (by decide) rfl ?_
  refine fields_and_eq _ _ _ ?_
  simp [encodeFields, fmtR, fieldsOf]

theorem polyFma2 (xd : XReg) (xa : XReg) (rb : RReg) : Statement (.polyFma2 xd xa rb) := by
  refine of_fields _ ⟨"POLY.FMA2", 0x11000002, 0xFF000FFF⟩ (by decide) rfl ?_
  refine fields_and_eq _ _ _ ?_
  simp [encodeFields, fmtR, fieldsOf]

theorem polyEstrin (xd : XReg) (xa : XReg) (rb : RReg) (n : BitVec 8) : Statement (.polyEstrin xd xa rb n) := by
  refine of_fields _ ⟨"POLY.ESTRIN", 0x12000000, 0xFF000F00⟩ (by decide) rfl ?_
  refine fields_and_eq _ _ _ ?_
  simp [encodeFields, fmtR, fieldsOf]

theorem polyRat (xd : XReg) (xa : XReg) (rb : RReg) (rc : RReg) (n : BitVec 8) : Statement (.polyRat xd xa rb rc n) := by
  refine of_fields _ ⟨"POLY.RAT", 0x13000000, 0xFF000000⟩ (by decide) rfl ?_
  refine fields_and_eq _ _ _ ?_
  simp [encodeFields, fmtR, fieldsOf]

theorem sinRef (xd : XReg) (xa : XReg) : Statement (.sinRef xd xa) := by
  refine of_fields _ ⟨"SIN.REF", 0x20000000, 0xFF00FFFF⟩ (by decide) rfl ?_
  refine fields_and_eq _ _ _ ?_
  simp [encodeFields, fmtR, fieldsOf]

theorem sinFast (xd : XReg) (xa : XReg) : Statement (.sinFast xd xa) := by
  refine of_fields _ ⟨"SIN.FAST", 0x20000001, 0xFF00FFFF⟩ (by decide) rfl ?_
  refine fields_and_eq _ _ _ ?_
  simp [encodeFields, fmtR, fieldsOf]

theorem sinFaster (xd : XReg) (xa : XReg) : Statement (.sinFaster xd xa) := by
  refine of_fields _ ⟨"SIN.FASTER", 0x20000002, 0xFF00FFFF⟩ (by decide) rfl ?_
  refine fields_and_eq _ _ _ ?_
  simp [encodeFields, fmtR, fieldsOf]

theorem cosRef (xd : XReg) (xa : XReg) : Statement (.cosRef xd xa) := by
  refine of_fields _ ⟨"COS.REF", 0x21000000, 0xFF00FFFF⟩ (by decide) rfl ?_
  refine fields_and_eq _ _ _ ?_
  simp [encodeFields, fmtR, fieldsOf]

theorem cosFast (xd : XReg) (xa : XReg) : Statement (.cosFast xd xa) := by
  refine of_fields _ ⟨"COS.FAST", 0x21000001, 0xFF00FFFF⟩ (by decide) rfl ?_
  refine fields_and_eq _ _ _ ?_
  simp [encodeFields, fmtR, fieldsOf]

theorem cosFaster (xd : XReg) (xa : XReg) : Statement (.cosFaster xd xa) := by
  refine of_fields _ ⟨"COS.FASTER", 0x21000002, 0xFF00FFFF⟩ (by decide) rfl ?_
  refine fields_and_eq _ _ _ ?_
  simp [encodeFields, fmtR, fieldsOf]

theorem tanRef (xd : XReg) (xa : XReg) : Statement (.tanRef xd xa) := by
  refine of_fields _ ⟨"TAN.REF", 0x22000000, 0xFF00FFFF⟩ (by decide) rfl ?_
  refine fields_and_eq _ _ _ ?_
  simp [encodeFields, fmtR, fieldsOf]

theorem tanFast (xd : XReg) (xa : XReg) : Statement (.tanFast xd xa) := by
  refine of_fields _ ⟨"TAN.FAST", 0x22000001, 0xFF00FFFF⟩ (by decide) rfl ?_
  refine fields_and_eq _ _ _ ?_
  simp [encodeFields, fmtR, fieldsOf]

theorem tanFaster (xd : XReg) (xa : XReg) : Statement (.tanFaster xd xa) := by
  refine of_fields _ ⟨"TAN.FASTER", 0x22000002, 0xFF00FFFF⟩ (by decide) rfl ?_
  refine fields_and_eq _ _ _ ?_
  simp [encodeFields, fmtR, fieldsOf]

theorem tanhRef (xd : XReg) (xa : XReg) : Statement (.tanhRef xd xa) := by
  refine of_fields _ ⟨"TANH.REF", 0x23000000, 0xFF00FFFF⟩ (by decide) rfl ?_
  refine fields_and_eq _ _ _ ?_
  simp [encodeFields, fmtR, fieldsOf]

theorem tanhFast (xd : XReg) (xa : XReg) : Statement (.tanhFast xd xa) := by
  refine of_fields _ ⟨"TANH.FAST", 0x23000001, 0xFF00FFFF⟩ (by decide) rfl ?_
  refine fields_and_eq _ _ _ ?_
  simp [encodeFields, fmtR, fieldsOf]

theorem log2Ref (xd : XReg) (xa : XReg) : Statement (.log2Ref xd xa) := by
  refine of_fields _ ⟨"LOG2.REF", 0x24000000, 0xFF00FFFF⟩ (by decide) rfl ?_
  refine fields_and_eq _ _ _ ?_
  simp [encodeFields, fmtR, fieldsOf]

theorem log2Fast (xd : XReg) (xa : XReg) : Statement (.log2Fast xd xa) := by
  refine of_fields _ ⟨"LOG2.FAST", 0x24000001, 0xFF00FFFF⟩ (by decide) rfl ?_
  refine fields_and_eq _ _ _ ?_
  simp [encodeFields, fmtR, fieldsOf]

theorem log2Bit (xd : XReg) (xa : XReg) : Statement (.log2Bit xd xa) := by
  refine of_fields _ ⟨"LOG2.BIT", 0x24000003, 0xFF00FFFF⟩ (by decide) rfl ?_
  refine fields_and_eq _ _ _ ?_
  simp [encodeFields, fmtR, fieldsOf]

theorem sqrtRef (xd : XReg) (xa : XReg) : Statement (.sqrtRef xd xa) := by
  refine of_fields _ ⟨"SQRT.REF", 0x25000000, 0xFF00FFFF⟩ (by decide) rfl ?_
  refine fields_and_eq _ _ _ ?_
  simp [encodeFields, fmtR, fieldsOf]

theorem sqrtFast (xd : XReg) (xa : XReg) : Statement (.sqrtFast xd xa) := by
  refine of_fields _ ⟨"SQRT.FAST", 0x25000001, 0xFF00FFFF⟩ (by decide) rfl ?_
  refine fields_and_eq _ _ _ ?_
  simp [encodeFields, fmtR, fieldsOf]

theorem fmin (xd : XReg) (xa : XReg) (xb : XReg) : Statement (.fmin xd xa xb) := by
  refine of_fields _ ⟨"MIN", 0x28000000, 0xFF000FFF⟩ (by decide) rfl ?_
  refine fields_and_eq _ _ _ ?_
  simp [encodeFields, fmtR, fieldsOf]

theorem fmax (xd : XReg) (xa : XReg) (xb : XReg) : Statement (.fmax xd xa xb) := by
  refine of_fields _ ⟨"MAX", 0x29000000, 0xFF000FFF⟩ (by decide) rfl ?_
  refine fields_and_eq _ _ _ ?_
  simp [encodeFields, fmtR, fieldsOf]

theorem clip (xd : XReg) (xa : XReg) (xb : XReg) (xc : XReg) : Statement (.clip xd xa xb xc) := by
  refine of_fields _ ⟨"CLIP", 0x2A000000, 0xFF0000FF⟩ (by decide) rfl ?_
  refine fields_and_eq _ _ _ ?_
  simp [encodeFields, fmtR, fieldsOf]

theorem within (rd : RReg) (xa : XReg) (xb : XReg) (xc : XReg) : Statement (.within rd xa xb xc) := by
  refine of_fields _ ⟨"WITHIN", 0x2B000000, 0xFF0000FF⟩ (by decide) rfl ?_
  refine fields_and_eq _ _ _ ?_
  simp [encodeFields, fmtR, fieldsOf]

theorem const (xd : XReg) (k : ConstSel) : Statement (.const xd k) := by
  refine of_fields _ ⟨"CONST", 0x07000000, 0xFF0FFF00⟩ (by decide) rfl ?_
  refine fields_and_eq _ _ _ ?_
  simp [encodeFields, fmtR, fieldsOf]

theorem bqLpN (xa : XReg) (xb : XReg) : Statement (.bqLpN xa xb) := by
  refine of_fields _ ⟨"BQ.LP.N", 0x30000000, 0xFFF00FFF⟩ (by decide) rfl ?_
  refine fields_and_eq _ _ _ ?_
  simp [encodeFields, fmtR, fieldsOf]

theorem bqLpCs (xa : XReg) (xb : XReg) (xc : XReg) : Statement (.bqLpCs xa xb xc) := by
  refine of_fields _ ⟨"BQ.LP.CS", 0x30000001, 0xFFF000FF⟩ (by decide) rfl ?_
  refine fields_and_eq _ _ _ ?_
  simp [encodeFields, fmtR, fieldsOf]

theorem bqLpD (xa : XReg) (xb : XReg) : Statement (.bqLpD xa xb) := by
  refine of_fields _ ⟨"BQ.LP.D", 0x30000002, 0xFFF00FFF⟩ (by decide) rfl ?_
  refine fields_and_eq _ _ _ ?_
  simp [encodeFields, fmtR, fieldsOf]

theorem bqHpN (xa : XReg) (xb : XReg) : Statement (.bqHpN xa xb) := by
  refine of_fields _ ⟨"BQ.HP.N", 0x31000000, 0xFFF00FFF⟩ (by decide) rfl ?_
  refine fields_and_eq _ _ _ ?_
  simp [encodeFields, fmtR, fieldsOf]

theorem bqHpCs (xa : XReg) (xb : XReg) (xc : XReg) : Statement (.bqHpCs xa xb xc) := by
  refine of_fields _ ⟨"BQ.HP.CS", 0x31000001, 0xFFF000FF⟩ (by decide) rfl ?_
  refine fields_and_eq _ _ _ ?_
  simp [encodeFields, fmtR, fieldsOf]

theorem bqHpD (xa : XReg) (xb : XReg) : Statement (.bqHpD xa xb) := by
  refine of_fields _ ⟨"BQ.HP.D", 0x31000002, 0xFFF00FFF⟩ (by decide) rfl ?_
  refine fields_and_eq _ _ _ ?_
  simp [encodeFields, fmtR, fieldsOf]

theorem bqBpN (xa : XReg) (xb : XReg) : Statement (.bqBpN xa xb) := by
  refine of_fields _ ⟨"BQ.BP.N", 0x32000000, 0xFFF00FFF⟩ (by decide) rfl ?_
  refine fields_and_eq _ _ _ ?_
  simp [encodeFields, fmtR, fieldsOf]

theorem bqBpCs (xa : XReg) (xb : XReg) (xc : XReg) : Statement (.bqBpCs xa xb xc) := by
  refine of_fields _ ⟨"BQ.BP.CS", 0x32000001, 0xFFF000FF⟩ (by decide) rfl ?_
  refine fields_and_eq _ _ _ ?_
  simp [encodeFields, fmtR, fieldsOf]

theorem bqBpD (xa : XReg) (xb : XReg) : Statement (.bqBpD xa xb) := by
  refine of_fields _ ⟨"BQ.BP.D", 0x32000002, 0xFFF00FFF⟩ (by decide) rfl ?_
  refine fields_and_eq _ _ _ ?_
  simp [encodeFields, fmtR, fieldsOf]

theorem bqBrN (xa : XReg) (xb : XReg) : Statement (.bqBrN xa xb) := by
  refine of_fields _ ⟨"BQ.BR.N", 0x33000000, 0xFFF00FFF⟩ (by decide) rfl ?_
  refine fields_and_eq _ _ _ ?_
  simp [encodeFields, fmtR, fieldsOf]

theorem bqBrCs (xa : XReg) (xb : XReg) (xc : XReg) : Statement (.bqBrCs xa xb xc) := by
  refine of_fields _ ⟨"BQ.BR.CS", 0x33000001, 0xFFF000FF⟩ (by decide) rfl ?_
  refine fields_and_eq _ _ _ ?_
  simp [encodeFields, fmtR, fieldsOf]

theorem bqBrD (xa : XReg) (xb : XReg) : Statement (.bqBrD xa xb) := by
  refine of_fields _ ⟨"BQ.BR.D", 0x33000002, 0xFFF00FFF⟩ (by decide) rfl ?_
  refine fields_and_eq _ _ _ ?_
  simp [encodeFields, fmtR, fieldsOf]

theorem bqApN (xa : XReg) (xb : XReg) : Statement (.bqApN xa xb) := by
  refine of_fields _ ⟨"BQ.AP.N", 0x34000000, 0xFFF00FFF⟩ (by decide) rfl ?_
  refine fields_and_eq _ _ _ ?_
  simp [encodeFields, fmtR, fieldsOf]

theorem bqApCs (xa : XReg) (xb : XReg) (xc : XReg) : Statement (.bqApCs xa xb xc) := by
  refine of_fields _ ⟨"BQ.AP.CS", 0x34000001, 0xFFF000FF⟩ (by decide) rfl ?_
  refine fields_and_eq _ _ _ ?_
  simp [encodeFields, fmtR, fieldsOf]

theorem bqApD (xa : XReg) (xb : XReg) : Statement (.bqApD xa xb) := by
  refine of_fields _ ⟨"BQ.AP.D", 0x34000002, 0xFFF00FFF⟩ (by decide) rfl ?_
  refine fields_and_eq _ _ _ ?_
  simp [encodeFields, fmtR, fieldsOf]

theorem bqProc (xd : XReg) (xa : XReg) (ch : Chan) : Statement (.bqProc xd xa ch) := by
  refine of_fields _ ⟨"BQ.PROC", 0x38000000, 0xFF00FFF0⟩ (by decide) rfl ?_
  refine fields_and_eq _ _ _ ?_
  simp [encodeFields, fmtR, fieldsOf, selCh_and]
  decide

theorem bqBuf (ra : RReg) (rb : RReg) (ch : Chan) : Statement (.bqBuf ra rb ch) := by
  refine of_fields _ ⟨"BQ.BUF", 0x39000000, 0xFFF00FF0⟩ (by decide) rfl ?_
  refine fields_and_eq _ _ _ ?_
  simp [encodeFields, fmtR, fieldsOf, selCh_and]
  decide

theorem bqOpt (ra : RReg) (rb : RReg) (ch : Chan) : Statement (.bqOpt ra rb ch) := by
  refine of_fields _ ⟨"BQ.OPT", 0x3A000000, 0xFFF00FF0⟩ (by decide) rfl ?_
  refine fields_and_eq _ _ _ ?_
  simp [encodeFields, fmtR, fieldsOf, selCh_and]
  decide

theorem bqOpt2 (rd : RReg) (ra : RReg) (rb : RReg) (ch : Chan) : Statement (.bqOpt2 rd ra rb ch) := by
  refine of_fields _ ⟨"BQ.OPT2", 0x3B000000, 0xFF000FF0⟩ (by decide) rfl ?_
  refine fields_and_eq _ _ _ ?_
  simp [encodeFields, fmtR, fieldsOf, selCh_and]
  decide

theorem bqMbuf (ra : RReg) (rb : RReg) : Statement (.bqMbuf ra rb) := by
  refine of_fields _ ⟨"BQ.MBUF", 0x3C000000, 0xFFF00FFF⟩ (by decide) rfl ?_
  refine fields_and_eq _ _ _ ?_
  simp [encodeFields, fmtR, fieldsOf]

theorem bqMopt (ra : RReg) (rb : RReg) : Statement (.bqMopt ra rb) := by
  refine of_fields _ ⟨"BQ.MOPT", 0x3D000000, 0xFFF00FFF⟩ (by decide) rfl ?_
  refine fields_and_eq _ _ _ ?_
  simp [encodeFields, fmtR, fieldsOf]

theorem bqMopt2 (rd : RReg) (ra : RReg) (rb : RReg) : Statement (.bqMopt2 rd ra rb) := by
  refine of_fields _ ⟨"BQ.MOPT2", 0x3E000000, 0xFF000FFF⟩ (by decide) rfl ?_
  refine fields_and_eq _ _ _ ?_
  simp [encodeFields, fmtR, fieldsOf]

theorem svfReset (xa : XReg) : Statement (.svfReset xa) := by
  refine of_fields _ ⟨"SVF.RESET", 0x40000000, 0xFFF0FFFF⟩ (by decide) rfl ?_
  refine fields_and_eq _ _ _ ?_
  simp [encodeFields, fmtR, fieldsOf]

theorem svfSetc (rd : RReg) (xa : XReg) (xb : XReg) : Statement (.svfSetc rd xa xb) := by
  refine of_fields _ ⟨"SVF.SETC", 0x41000000, 0xFF000FFF⟩ (by decide) rfl ?_
  refine fields_and_eq _ _ _ ?_
  simp [encodeFields, fmtR, fieldsOf]

theorem svfSetu (xa : XReg) (xb : XReg) : Statement (.svfSetu xa xb) := by
  refine of_fields _ ⟨"SVF.SETU", 0x42000000, 0xFFF00FFF⟩ (by decide) rfl ?_
  refine fields_and_eq _ _ _ ?_
  simp [encodeFields, fmtR, fieldsOf]

theorem svfProcHp (xd : XReg) (xa : XReg) (ch : Chan) : Statement (.svfProcHp xd xa ch) := by
  refine of_fields _ ⟨"SVF.PROC.HP", 0x43000000, 0xFF00FFF0⟩ (by decide) rfl ?_
  refine fields_and_eq _ _ _ ?_
  simp [encodeFields, fmtR, fieldsOf, selCh_and]
  decide

theorem svfProcBp (xd : XReg) (xa : XReg) (ch : Chan) : Statement (.svfProcBp xd xa ch) := by
  refine of_fields _ ⟨"SVF.PROC.BP", 0x43000010, 0xFF00FFF0⟩ (by decide) rfl ?_
  refine fields_and_eq _ _ _ ?_
  simp [encodeFields, fmtR, fieldsOf, selCh_and]
  decide

theorem svfProcLp (xd : XReg) (xa : XReg) (ch : Chan) : Statement (.svfProcLp xd xa ch) := by
  refine of_fields _ ⟨"SVF.PROC.LP", 0x43000020, 0xFF00FFF0⟩ (by decide) rfl ?_
  refine fields_and_eq _ _ _ ?_
  simp [encodeFields, fmtR, fieldsOf, selCh_and]
  decide

theorem svfFrame (rd : RReg) (xa : XReg) (ch : Chan) : Statement (.svfFrame rd xa ch) := by
  refine of_fields _ ⟨"SVF.FRAME", 0x44000000, 0xFF00FFF0⟩ (by decide) rfl ?_
  refine fields_and_eq _ _ _ ?_
  simp [encodeFields, fmtR, fieldsOf, selCh_and]
  decide

theorem svfBufHp (ra : RReg) (rb : RReg) (ch : Chan) : Statement (.svfBufHp ra rb ch) := by
  refine of_fields _ ⟨"SVF.BUF.HP", 0x45000000, 0xFFF00FF0⟩ (by decide) rfl ?_
  refine fields_and_eq _ _ _ ?_
  simp [encodeFields, fmtR, fieldsOf, selCh_and]
  decide

theorem svfBufBp (ra : RReg) (rb : RReg) (ch : Chan) : Statement (.svfBufBp ra rb ch) := by
  refine of_fields _ ⟨"SVF.BUF.BP", 0x45000010, 0xFFF00FF0⟩ (by decide) rfl ?_
  refine fields_and_eq _ _ _ ?_
  simp [encodeFields, fmtR, fieldsOf, selCh_and]
  decide

theorem svfBufLp (ra : RReg) (rb : RReg) (ch : Chan) : Statement (.svfBufLp ra rb ch) := by
  refine of_fields _ ⟨"SVF.BUF.LP", 0x45000020, 0xFFF00FF0⟩ (by decide) rfl ?_
  refine fields_and_eq _ _ _ ?_
  simp [encodeFields, fmtR, fieldsOf, selCh_and]
  decide

theorem svfMbufHp (ra : RReg) (rb : RReg) : Statement (.svfMbufHp ra rb) := by
  refine of_fields _ ⟨"SVF.MBUF.HP", 0x46000000, 0xFFF00FFF⟩ (by decide) rfl ?_
  refine fields_and_eq _ _ _ ?_
  simp [encodeFields, fmtR, fieldsOf]

theorem svfMbufBp (ra : RReg) (rb : RReg) : Statement (.svfMbufBp ra rb) := by
  refine of_fields _ ⟨"SVF.MBUF.BP", 0x46000010, 0xFFF00FFF⟩ (by decide) rfl ?_
  refine fields_and_eq _ _ _ ?_
  simp [encodeFields, fmtR, fieldsOf]

theorem svfMbufLp (ra : RReg) (rb : RReg) : Statement (.svfMbufLp ra rb) := by
  refine of_fields _ ⟨"SVF.MBUF.LP", 0x46000020, 0xFFF00FFF⟩ (by decide) rfl ?_
  refine fields_and_eq _ _ _ ?_
  simp [encodeFields, fmtR, fieldsOf]

end Sys2Proof.Laws.RowMatch
end

