-- ==== Sys2Proof/Laws/Values.lean ====
section
/-! SUPPORT. What a pattern denotes (00_scope.md R8): `unpack` of the packed zeros and infinities, of NaNs, of finite patterns
and of a pattern with its sign flipped; and the exact sum that cancels (R9, R10). -/

namespace Sys2Proof.Machine

theorem pack_toNat (f : Fmt) (n : Bool) (m : Nat) (h : m < signWeight f) :
    (pack f n m).toNat = if n then signWeight f + m else m := by
  cases f <;> cases n <;> simp only [pack, signWeight, flen] at * <;> simp <;> omega

theorem magOf_pack (f : Fmt) (n : Bool) (m : Nat) (h : m < signWeight f) : magOf f (pack f n m) = m := by
  rw [magOf, pack_toNat f n m h]
  cases n <;> simp [Nat.mod_eq_of_lt h]

theorem signOf_pack (f : Fmt) (n : Bool) (m : Nat) (h : m < signWeight f) : signOf f (pack f n m) = n := by
  rw [signOf, pack_toNat f n m h]
  cases n
  · simp [Nat.div_eq_of_lt h]
  · simp [Nat.add_div_left m (signWeight_pos f), Nat.div_eq_of_lt h]

@[simp] theorem unpack_infPat (f : Fmt) (n : Bool) : unpack f (infPat f n) = .inf n := by
  cases f <;> cases n <;> decide +kernel

@[simp] theorem unpack_pack_zero (f : Fmt) (n : Bool) : unpack f (pack f n 0) = .fin n 0 (minExp f) := by
  cases f <;> cases n <;> decide +kernel

theorem unpack_of_isNan (f : Fmt) (a : Pat) (h : isNan f a = true) : unpack f a = .nan := by
  replace h : (2 ^ expBits f - 1) * 2 ^ fracBits f < magOf f a := of_decide_eq_true h
  have hlt := magOf_lt f a
  cases f <;> simp only [unpack, expBits, fracBits, signWeight, flen] at * <;> norm_num at * <;>
    rw [if_pos (by omega), if_neg (by omega)]

theorem unpack_of_isFinite (f : Fmt) (a : Pat) (h : isFinite f a = true) :
    ∃ m e, unpack f a = .fin (signOf f a) m e ∧ (m = 0 ↔ isZero f a = true) := by
  replace h : magOf f a < (2 ^ expBits f - 1) * 2 ^ fracBits f := of_decide_eq_true h
  simp only [isZero, decide_eq_true_eq]
  have h1 : magOf f a / 2 ^ fracBits f ≠ 2 ^ expBits f - 1 := by
    intro h2; have := Nat.div_mul_le_self (magOf f a) (2 ^ fracBits f); rw [h2] at this; omega
  by_cases h0 : magOf f a / 2 ^ fracBits f = 0
  · refine ⟨magOf f a % 2 ^ fracBits f, minExp f, by rw [unpack, if_neg h1, if_pos h0], ?_⟩
    have := Nat.div_add_mod (magOf f a) (2 ^ fracBits f)
    rw [h0] at this; rw [← this]; simp
  · refine ⟨2 ^ fracBits f + magOf f a % 2 ^ fracBits f, _, by rw [unpack, if_neg h1, if_neg h0], ?_⟩
    have : 0 < 2 ^ fracBits f := by positivity
    constructor
    · intro h; omega
    · intro h; rw [h] at h0; simp at h0

theorem unpack_of_realOf (f : Fmt) (a : Pat) (x : ℚ) (h : realOf f a = some x) :
    ∃ n m e, unpack f a = .fin n m e ∧ x = (signed n m : ℚ) * (2 : ℚ) ^ e := by
  unfold realOf at h
  cases hu : unpack f a with
  | nan => simp [hu] at h
  | inf n => simp [hu] at h
  | fin n m e =>
    simp only [hu, Option.some.injEq] at h
    exact ⟨n, m, e, rfl, h.symm⟩

theorem unpack_flipSign (f : Fmt) (a : Pat) :
    unpack f (flipSign f a) =
      match unpack f a with
      | .nan => .nan
      | .inf n => .inf (!n)
      | .fin n m e => .fin (!n) m e := by
  simp only [unpack, flipSign, magOf_pack f _ _ (magOf_lt f a), signOf_pack f _ _ (magOf_lt f a)]
  split
  · split <;> rfl
  · split <;> rfl

/-- A nonzero value and its opposite sum to `+0` (R9, R10). -/
theorem sumFin_cancel (f : Fmt) (na nb : Bool) (ma mb : Nat) (ea e2 : ℤ) (x : ℚ) (hx : x ≠ 0)
   (h1 : x = (signed na ma : ℚ) * (2:ℚ)^ea) (h2 : -x = (signed nb mb : ℚ) * (2:ℚ)^e2) : sumFin f na ma ea nb mb e2 = pack f false 0 := by
  have key : signed na (ma * 2 ^ (ea - min ea e2).toNat) + signed nb (mb * 2 ^ (e2 - min ea e2).toNat) = 0 := by
    have hp : ((2:ℚ)^(min ea e2)) ≠ 0 := by positivity
    have h3 : ∀ (n : Bool) (m : ℕ) (e : ℤ), min ea e2 ≤ e → ((signed n (m * 2 ^ (e - min ea e2).toNat) : ℤ) : ℚ) * 2^(min ea e2) = (signed n m : ℚ) * 2^e := by
      intro n m e he
      have : (2:ℚ)^e = (2:ℚ)^((e - min ea e2).toNat) * (2:ℚ)^(min ea e2) := by
        rw [← zpow_natCast, ← zpow_add₀ (by norm_num)]; congr 1; omega
      rw [this]; cases n <;> simp [signed] <;> ring
    have : ((signed na (ma * 2 ^ (ea - min ea e2).toNat) + signed nb (mb * 2 ^ (e2 - min ea e2).toNat) : ℤ) : ℚ) = 0 := by
      apply mul_right_cancel₀ hp
      push_cast
      rw [add_mul, h3 _ _ _ (min_le_left _ _), h3 _ _ _ (min_le_right _ _), ← h1, ← h2]; ring
    exact_mod_cast this
  have hs : (na && nb) = false := by
    cases na <;> cases nb <;> simp
    have p1 : (0:ℚ) < 2^ea := by positivity
    have p2 : (0:ℚ) < 2^e2 := by positivity
    simp [signed] at h1 h2
    have : (0:ℚ) ≤ ma * 2^ea := by positivity
    have : (0:ℚ) ≤ mb * 2^e2 := by positivity
    exact hx (by linarith)
  simp [sumFin, key, hs]

end Sys2Proof.Machine
end

