-- ==== Sys2Proof/Tests/Slice0.lean ====
section
/-! SUPPORT. Tests: the vectors of spec/95_test_vectors.md (their ids stand in the docstrings), and for every statement with
hypotheses a state and operands that meet them all. -/

namespace Sys2Proof.Tests

open Sys2Proof Sys2Proof.Machine

set_option Elab.async false

/-! ## Words written out from 30_encoding.md R111, R112, R116 (field by field: opcode, d, a, b, c, imm8) -/

theorem test_decode_data_movement :
    decode 0x00000000#32 = .ok .nop ∧
    decode 0x01100100#32 = .ok (.setr 1 0x0100) ∧
    decode 0x02100001#32 = .ok (.setrh 1 0x0001) ∧
    decode 0x0321FFFC#32 = .ok (.addri 2 1 0xFFFC) ∧
    decode 0x04110008#32 = .ok (.ld 1 1 0x0008) ∧
    decode 0x05230000#32 = .ok (.st 2 3 0x0000) ∧
    decode 0x06310000#32 = .ok (.mov 3 1) ∧
    decode 0x0841000A#32 = .ok (.mfc 4 .y1 1) ∧
    decode 0x07100000#32 = .ok (.const 1 .pi) := by
  decide +kernel

theorem test_decode_polynomial :
    decode 0x10312003#32 = .ok (.polyHorner 3 1 2 3) ∧
    decode 0x11312002#32 = .ok (.polyFma2 3 1 2) ∧
    decode 0x12312003#32 = .ok (.polyEstrin 3 1 2 3) ∧
    decode 0x13312403#32 = .ok (.polyRat 3 1 2 4 3) := by
  decide +kernel

theorem test_decode_approximation :
    decode 0x20610000#32 = .ok (.sinRef 6 1) ∧
    decode 0x20610001#32 = .ok (.sinFast 6 1) ∧
    decode 0x20610002#32 = .ok (.sinFaster 6 1) ∧
    decode 0x21610000#32 = .ok (.cosRef 6 1) ∧
    decode 0x21610001#32 = .ok (.cosFast 6 1) ∧
    decode 0x21610002#32 = .ok (.cosFaster 6 1) ∧
    decode 0x22610000#32 = .ok (.tanRef 6 1) ∧
    decode 0x22610001#32 = .ok (.tanFast 6 1) ∧
    decode 0x22610002#32 = .ok (.tanFaster 6 1) ∧
    decode 0x23610000#32 = .ok (.tanhRef 6 1) ∧
    decode 0x23610001#32 = .ok (.tanhFast 6 1) ∧
    decode 0x24610000#32 = .ok (.log2Ref 6 1) ∧
    decode 0x24610001#32 = .ok (.log2Fast 6 1) ∧
    decode 0x24610003#32 = .ok (.log2Bit 6 1) ∧
    decode 0x25610000#32 = .ok (.sqrtRef 6 1) ∧
    decode 0x25610001#32 = .ok (.sqrtFast 6 1) := by
  decide +kernel

theorem test_decode_utilities :
    decode 0x28612000#32 = .ok (.fmin 6 1 2) ∧
    decode 0x29312000#32 = .ok (.fmax 3 1 2) ∧
    decode 0x2A412300#32 = .ok (.clip 4 1 2 3) ∧
    decode 0x2B512300#32 = .ok (.within 5 1 2 3) := by
  decide +kernel

theorem test_decode_biquad_coefficients :
    decode 0x30012000#32 = .ok (.bqLpN 1 2) ∧
    decode 0x30012301#32 = .ok (.bqLpCs 1 2 3) ∧
    decode 0x30012002#32 = .ok (.bqLpD 1 2) ∧
    decode 0x31012000#32 = .ok (.bqHpN 1 2) ∧
    decode 0x31012301#32 = .ok (.bqHpCs 1 2 3) ∧
    decode 0x31012002#32 = .ok (.bqHpD 1 2) ∧
    decode 0x32012000#32 = .ok (.bqBpN 1 2) ∧
    decode 0x32012301#32 = .ok (.bqBpCs 1 2 3) ∧
    decode 0x32012002#32 = .ok (.bqBpD 1 2) ∧
    decode 0x33012000#32 = .ok (.bqBrN 1 2) ∧
    decode 0x33012301#32 = .ok (.bqBrCs 1 2 3) ∧
    decode 0x33012002#32 = .ok (.bqBrD 1 2) ∧
    decode 0x34012000#32 = .ok (.bqApN 1 2) ∧
    decode 0x34012301#32 = .ok (.bqApCs 1 2 3) ∧
    decode 0x34012002#32 = .ok (.bqApD 1 2) := by
  decide +kernel

theorem test_decode_biquad_processing :
    decode 0x38210000#32 = .ok (.bqProc 2 1 0) ∧
    decode 0x39012001#32 = .ok (.bqBuf 1 2 1) ∧
    decode 0x3A012000#32 = .ok (.bqOpt 1 2 0) ∧
    decode 0x3B312000#32 = .ok (.bqOpt2 3 1 2 0) ∧
    decode 0x3C042000#32 = .ok (.bqMbuf 4 2) ∧
    decode 0x3D042000#32 = .ok (.bqMopt 4 2) ∧
    decode 0x3E542000#32 = .ok (.bqMopt2 5 4 2) := by
  decide +kernel

theorem test_decode_svf :
    decode 0x40010000#32 = .ok (.svfReset 1) ∧
    decode 0x41512000#32 = .ok (.svfSetc 5 1 2) ∧
    decode 0x42012000#32 = .ok (.svfSetu 1 2) ∧
    decode 0x43210000#32 = .ok (.svfProcHp 2 1 0) ∧
    decode 0x43210010#32 = .ok (.svfProcBp 2 1 0) ∧
    decode 0x43210021#32 = .ok (.svfProcLp 2 1 1) ∧
    decode 0x44310000#32 = .ok (.svfFrame 3 1 0) ∧
    decode 0x45012001#32 = .ok (.svfBufHp 1 2 1) ∧
    decode 0x45012011#32 = .ok (.svfBufBp 1 2 1) ∧
    decode 0x45012021#32 = .ok (.svfBufLp 1 2 1) ∧
    decode 0x46042000#32 = .ok (.svfMbufHp 4 2) ∧
    decode 0x46042010#32 = .ok (.svfMbufBp 4 2) ∧
    decode 0x46042020#32 = .ok (.svfMbufLp 4 2) := by
  decide +kernel

/-- The illegal words of section 2.6 of the vectors, and V40-14, V40-15. -/
theorem test_decode_illegal_words :
    ([0x09000000, 0xFFFFFFFF, 0x00000001, 0x01110000, 0x06310001, 0x10312000, 0x11312003, 0x20010004, 0x24010002, 0x07100006, 0x30012003, 0x30012100, 0x40110000, 0x43210030, 0x43210040, 0x46042001, 0x3C142000, 0x08410000, 0x08400005] : List Word).all
        (fun w => match decode w with
          | .ok _ => false
          | .error _ => true) = true := by
  decide +kernel

/-- `N = 0` and a channel beside a register that is not per channel are refused, their neighbours are not (R114, R116). -/
theorem test_wellFormed_refuses :
    Instr.wellFormed (.polyHorner 3 1 2 0) = false ∧ Instr.wellFormed (.polyEstrin 3 1 2 0) = false ∧
    Instr.wellFormed (.polyRat 3 1 2 4 0) = false ∧ Instr.wellFormed (.mfc 4 .b0 1) = false ∧
    Instr.wellFormed (.polyHorner 3 1 2 255) = true ∧ Instr.wellFormed (.polyEstrin 3 1 2 1) = true ∧
    Instr.wellFormed (.polyRat 3 1 2 4 1) = true ∧ Instr.wellFormed (.mfc 4 .b0 0) = true ∧
    Instr.wellFormed (.mfc 4 .y1 15) = true := by
  decide

/-- The words of one pseudo-instruction each (30_encoding.md R121): LI r1, 0x12345678; MOVR r2, r1; NEXT r3. -/
theorem test_pseudo_words :
    (pseudoLi 1 0x12345678).map encode = [0x01105678, 0x02101234] ∧ (pseudoMovr 2 1).map encode = [0x03210000] ∧
    (pseudoNext .b64 3).map encode = [0x03330008] := by
  decide +kernel

/-! ## Small machines -/

/-- The state after reset of a build, with some registers and a memory. -/
def machine (b : Build) (xs : List (XReg × Pat)) (rs : List (RReg × Word)) (m : Memory) : State :=
  { rs.foldl (fun s p => s.setR p.1 p.2) (xs.foldl (fun s p => s.setX p.1 p.2) (State.powerOn b)) with dmem := m }

/-- A memory with elements stored from `base` on. -/
def put (f : Fmt) (base : Nat) (vs : List Pat) (m : Memory) : Memory :=
  (vs.zipIdx.foldl fun n p => setElem f n (elemAddr f base p.2) p.1) m

/-- A memory with two 32-bit words, a pointer table, at `base`. -/
def putTable (base : Nat) (p q : Word) (m : Memory) : Memory :=
  memWrite (memWrite m base 4 (p.setWidth 64)) (base + 4) 4 (q.setWidth 64)

/-- The step that runs the word `w` has a next state, in `IDLE`, that meets `p`. -/
def after (s : State) (w : Word) (p : State → Bool) : Bool :=
  match step (s.withFetchWord 32 w.toNat) with
  | .next t => t.run == .idle && p t
  | _ => false

/-- The step that runs `w` ends by fault entry with this code and this `FINFO`, all else as before. -/
def faults (s : State) (w : Word) (code : BitVec 4) (info : Word) : Bool :=
  match step (s.withFetchWord 32 w.toNat) with
  | .next t => t == { s with run := .fault, cause := code, finfo := info, fcmd := w, cmd := w }
  | _ => false

/-- `x[d]` after the step that runs `w` with `x[1] = v` in `EXCFG`. -/
def gives (w : Word) (v : Pat) (d : XReg) (out : Pat) : Bool :=
  after (machine (excfg .b32) [(1, v)] [] []) w fun t => t.getX d == out

/-- The state before a coefficient command with `x[1] = a`, `x[2] = b`, `x[3] = c`. -/
def three (a b c : Pat) : State := machine (excfg .b32) [(1, a), (2, b), (3, c)] [] []

/-- The coefficients of V43-1. -/
def lowpass : BqCoef := { b0 := 0x3E124925, b1 := 0x3E924925, b2 := 0x3E124925, a1 := 0xBF5B6DB7, a2 := 0x3EDB6DB7 }

/-- The input of V43-7, its outputs and the state it leaves. -/
def biquadIn : List Pat := [0x3F800000, 0, 0, 0xBF000000, 0x3E800000]

/-- The outputs of V43-7. -/
def biquadOut : List Pat := [0x3E124925, 0x3ED0FAC7, 0x3EDCEBD9, 0x3DFCE870, 0xBE3EAFAF]

/-- The channel state after V43-7. -/
def biquadEnd : BqDelay := { x1 := 0x3E800000, x2 := 0xBF000000, y1 := 0xBE3EAFAF, y2 := 0x3DFCE870 }

/-- A machine with V43-1's coefficients, V43-7's input at 0x200 and at 0x240, a table of the two at 0x400, one of 0x280 and
0x2C0 at 0x500, and the addresses and the count in registers. -/
def biquad : State :=
  { machine (excfg .b32) [(1, 0x3F800000)]
      [(1, 0x200), (2, 5), (3, 0x280), (4, 0x400), (5, 0x500)]
      (put .b32 0x200 biquadIn (put .b32 0x240 biquadIn
        (putTable 0x400 0x200 0x240 (putTable 0x500 0x280 0x2C0 [])))) with bq := lowpass }

/-- The coefficients of V44-1. -/
def svfCoefs : SvfCoef := { f1 := 0x3E05F214, q1 := 0x3FB50BF3, fs := 0x473B8000 }

/-- A machine with V44-1's coefficients, V44-7's input at 0x200 and 0x240, a table of the two at 0x400, `x[1] = 1`, `x[3] = 0.707`,
for a choice of `SVF_FB`. -/
def svf (fb : SvfFb) : State :=
  { machine { excfg .b32 with svfFb := fb } [(1, 0x3F800000), (3, 0x3F34FDF4)]
      [(1, 0x200), (2, 3), (4, 0x400), (5, 0x300)]
      (put .b32 0x200 [0x3F800000, 0, 0] (put .b32 0x240 [0x3F800000, 0, 0] (putTable 0x400 0x200 0x240 []))) with
    svf := svfCoefs }

/-! ## Data movement (V40, V60) -/

/-- V40-1 -/
theorem test_nop : after State.reset 0x00000000 (fun t => t == { State.reset with cmd := 0 }) = true := by decide +kernel

/-- V40-2 -/
theorem test_setr_zero_extends :
    after (machine (excfg .b32) [] [(1, 0xABCD1234)] []) 0x0110FFFF (fun t => t.getR 1 == 0x0000FFFF) = true := by
  decide +kernel

/-- V40-3 -/
theorem test_setrh_keeps_low_half :
    after (machine (excfg .b32) [] [(1, 0x0000FFFF)] []) 0x0210FFFF (fun t => t.getR 1 == 0xFFFFFFFF) = true := by
  decide +kernel

/-- V40-4 -/
theorem test_addri_wraps :
    after (machine (excfg .b32) [] [(1, 0xFFFFFFFF)] []) 0x03210001 (fun t => t.getR 2 == 0) = true := by
  decide +kernel

/-- V40-6 -/
theorem test_addri_sign_extends :
    after (machine (excfg .b32) [] [(2, 0)] []) 0x03428000 (fun t => t.getR 4 == 0xFFFF8000) = true := by
  decide +kernel

/-- V40-7 -/
theorem test_ld_little_endian :
    after (machine (excfg .b32) [] [(1, 0x100)] [(0x10A, 0x80), (0x10B, 0x3F)]) 0x04110008
      (fun t => t.getX 1 == 0x3F800000) = true := by
  decide +kernel

/-- V60-14: the address wraps, then fails the bound. -/
theorem test_ld_access_fault : faults (machine (excfg .b32) [] [(1, 0)] []) 0x0411FFFC 5 0xFFFFFFFC = true := by
  decide +kernel

/-- V40-9 -/
theorem test_st_eight_bytes :
    after (machine (excfg .b64) [(2, 0x400921FB54442D18)] [(3, 0x200)] []) 0x05230008
      (fun t => t.dmem == [(0x208, 0x18), (0x209, 0x2D), (0x20A, 0x44), (0x20B, 0x54), (0x20C, 0xFB), (0x20D, 0x21),
        (0x20E, 0x09), (0x20F, 0x40)]) = true := by
  decide +kernel

/-- V40-8, and alignment before range as in V60-12. -/
theorem test_st_four_bytes :
    (after (machine (excfg .b32) [(2, 0x40490FDB)] [(3, 0x200)] []) 0x05230000
      (fun t => t.dmem == [(0x200, 0xDB), (0x201, 0x0F), (0x202, 0x49), (0x203, 0x40)]) &&
      faults (machine (excfg .b32) [] [(3, 0xFFFE)] []) 0x05230000 4 0xFFFE) = true := by
  decide +kernel

/-- V40-11: a signalling pattern is copied bit for bit. -/
theorem test_mov_copies_bits : gives 0x06310000 0x7FA00000 3 0x7FA00000 = true := by decide +kernel

/-- V40-12, V40-13: a shared register, and a channel the build does not have. -/
theorem test_mfc :
    (after biquad 0x08500003 (fun t => t.getX 5 == 0xBF5B6DB7) && faults biquad 0x0842000A 2 2) = true := by
  decide +kernel

/-- V42-42 and V42-40 in binary64. -/
theorem test_const :
    (gives 0x07100002 0 1 0x3FC90FDB &&
      after (State.powerOn (excfg .b64)) 0x07100000 (fun t => t.getX 1 == 0x400921FB54442D18)) = true := by
  decide +kernel

/-! ## Polynomials (V41) -/

/-- A machine with coefficients at 0x100 and an operand in `x[1]`. -/
def poly (cs : List Pat) (v : Pat) : State :=
  machine (excfg .b32) [(1, v)] [(2, 0x100), (4, 0x140)] (put .b32 0x100 cs [])

/-- V41-7 -/
theorem test_horner_rounds_in_order :
    after (poly [0x3DCCCCCD, 0x3E4CCCCD, 0x3E99999A, 0x3ECCCCCD] 0x3F1A8E91) 0x10312004
      (fun t => t.getX 3 == 0x3ED6141F) = true := by
  decide +kernel

/-- V41-12: an infinity times zero is a NaN, not a fault. -/
theorem test_horner_nan : after (poly [0x40400000, 0x7F800000] 0) 0x10312002 (fun t => t.getX 3 == 0x7FC00000) = true := by
  decide +kernel

/-- V41-6: one rounding. -/
theorem test_fma2_rounds_once :
    after (poly [0x3DCCCCCD, 0x3E99999A] 0xBE87E4C6) 0x11312002 (fun t => t.getX 3 == 0x3CA6E916) = true := by
  decide +kernel

/-- V41-7 -/
theorem test_estrin_rounds_in_pairs :
    after (poly [0x3DCCCCCD, 0x3E4CCCCD, 0x3E99999A, 0x3ECCCCCD] 0x3F1A8E91) 0x12312004
      (fun t => t.getX 3 == 0x3ED61420) = true := by
  decide +kernel

/-- V41-15: the pad is +0. -/
theorem test_estrin_pads_plus_zero :
    after (poly [0x80000000, 0x80000000, 0x80000000] 0x3F800000) 0x12312003 (fun t => t.getX 3 == 0) = true := by
  decide +kernel

/-- V41-22 at 2.0. -/
theorem test_rat_quotient :
    after
      (machine (excfg .b32) [(1, 0x40000000)] [(2, 0x100), (4, 0x140)]
        (put .b32 0x100 [0x3F800000, 0x40000000, 0x40400000] (put .b32 0x140 [0x40000000, 0x40000000, 0x40000000] [])))
      0x13312403 (fun t => t.getX 3 == 0x3F9B6DB7) = true := by
  decide +kernel

/-- V41-26 -/
theorem test_rat_denominator_fault :
    faults (machine (excfg .b32) [] [(2, 0x100), (4, 0x202)] []) 0x13312403 4 0x202 = true := by
  decide +kernel

/-! ## Approximations and utilities (V42) -/

/-- V42-1 -/
theorem test_sin_ref : gives 0x20210000 0x3F800000 2 0x3F576AA4 = true := by decide +kernel

/-- V42-2 -/
theorem test_cos_ref : gives 0x21210000 0x3F800000 2 0x3F0A5140 = true := by decide +kernel

/-- V42-3 -/
theorem test_tan_ref : gives 0x22210000 0x3F800000 2 0x3FC75923 = true := by decide +kernel

/-- V42-4 -/
theorem test_tanh_ref : gives 0x23210000 0x3F000000 2 0x3EEC9A9F = true := by decide +kernel

/-- V42-5 -/
theorem test_log2_ref : gives 0x24210000 0x41200000 2 0x40549A78 = true := by decide +kernel

/-- V42-6 -/
theorem test_sqrt_ref : gives 0x25210000 0x40000000 2 0x3FB504F3 = true := by decide +kernel

/-- V42-8, V42-9 -/
theorem test_sin_fast : (gives 0x20210001 0xC0400000 2 0xBE132439 && gives 0x20210001 0x80000000 2 0) = true := by
  decide +kernel

/-- V42-11 -/
theorem test_sin_faster : gives 0x20210002 0xC0400000 2 0xBDB81E13 = true := by decide +kernel

/-- V42-15, V42-16 -/
theorem test_cos_fast : (gives 0x21210001 0x40800000 2 0xBF275533 && gives 0x21210001 0x42C80000 2 0x3F5CC0D8) = true := by
  decide +kernel

/-- V42-17 -/
theorem test_cos_faster : gives 0x21210002 0x40800000 2 0xBF27552E = true := by decide +kernel

/-- V42-12, V42-13 -/
theorem test_tan_fast : (gives 0x22210001 0xBFC00000 2 0xC161999A && gives 0x22210001 0x7F800000 2 0x7FC00000) = true := by
  decide +kernel

/-- V42-14 -/
theorem test_tan_faster : gives 0x22210002 0xBFC00000 2 0xC1615619 = true := by decide +kernel

/-- V42-18 -/
theorem test_tanh_fast : gives 0x23210001 0xC0800000 2 0xBF80361D = true := by decide +kernel

/-- V42-19 -/
theorem test_log2_fast : gives 0x24210001 0x3FC00000 2 0x3F15BA76 = true := by decide +kernel

/-- V42-20, V42-21, V42-25: the sign is ignored and a NaN gives a number. -/
theorem test_log2_bit :
    (gives 0x24210003 0xC1200000 2 0x40549A66 && gives 0x24210003 0x7FC00000 2 0x430095BA) = true := by
  decide +kernel

/-- V42-27: narrowed first. -/
theorem test_log2_bit_b64 :
    after (machine (excfg .b64) [(1, 0x7E37E43C8800759C)] [] []) 0x24210003 (fun t => t.getX 2 == 0x4060000000000000) =
      true := by
  decide +kernel

/-- V42-28 -/
theorem test_sqrt_fast : gives 0x25210001 0x3E800000 2 0x3F010ECF = true := by decide +kernel

/-- V42-31, V42-33: the first operand unless the second is strictly smaller, copied bit for bit. -/
theorem test_min :
    (after (three 0x7FC00000 0x3F800000 0) 0x28512000 (fun t => t.getX 5 == 0x7FC00000) &&
      after (three 0x40000000 0xBF800000 0) 0x28512000 (fun t => t.getX 5 == 0xBF800000)) = true := by
  decide +kernel

/-- V42-34 -/
theorem test_max :
    (after (three 0x3F800000 0x7FC00000 0) 0x29512000 (fun t => t.getX 5 == 0x3F800000) &&
      after (three 0xFF800000 0x7F800000 0) 0x29512000 (fun t => t.getX 5 == 0x7F800000)) = true := by
  decide +kernel

/-- V42-36: the low bound is tested first. -/
theorem test_clip :
    (after (three 0 0x40000000 0x3F800000) 0x2A512300 (fun t => t.getX 5 == 0x40000000) &&
      after (three 0x40A00000 0xBF800000 0x3F800000) 0x2A512300 (fun t => t.getX 5 == 0x3F800000)) = true := by
  decide +kernel

/-- V42-38, V42-39 -/
theorem test_within :
    (after (three 0x3F800000 0x3F800000 0x3F800000) 0x2B512300 (fun t => t.getR 5 == 1) &&
      after (three 0x7FC00000 0xBF800000 0x3F800000) 0x2B512300 (fun t => t.getR 5 == 0)) = true := by
  decide +kernel

/-! ## Biquad (V43, V60, P4) -/

/-- V43-1 to V43-5 -/
theorem test_biquad_direct :
    ([(0x30012002, lowpass),
      (0x31012002, ⟨0x3F124925, 0xBF924925, 0x3F124925, 0xBF5B6DB7, 0x3EDB6DB7⟩),
      (0x32012002, ⟨0x3E924925, 0x00000000, 0xBE924925, 0xBF5B6DB7, 0x3EDB6DB7⟩),
      (0x33012002, ⟨0x3F36DB6E, 0xBF5B6DB7, 0x3F36DB6E, 0xBF5B6DB7, 0x3EDB6DB7⟩),
      (0x34012002, ⟨0x3EDB6DB7, 0xBF5B6DB7, 0x3F800000, 0xBF5B6DB7, 0x3EDB6DB7⟩)] : List (Word × BqCoef)).all
      (fun p => after (three 0x3F000000 0x3F800000 0) p.1 fun t => t.bq == p.2) = true := by
  decide +kernel

/-- V43-6, `BQ.LP.N` in binary32. -/
theorem test_biquad_lp_n :
    after (three 0x3DCCCCCD 0x3F34FDF4 0) 0x30012000
      (fun t => t.bq == ⟨0x3D8A246C, 0x3E0A246C, 0x3D8A246C, 0xBF924B86, 0x3ED35284⟩) = true := by
  decide +kernel

/-- V43-6, `BQ.LP.CS`. -/
theorem test_biquad_lp_cs :
    after (three 0x447A0000 0x473B8000 0x3F34FDF4) 0x30012301
      (fun t => t.bq == ⟨0x3B80526F, 0x3C00526F, 0x3B80526F, 0xBFE85C57, 0x3F54BB41⟩) = true := by
  decide +kernel

/-- V43-6, `BQ.HP.N` in binary64 (step 4 of P4). -/
theorem test_biquad_hp_n :
    after (machine (excfg .b64) [(1, 0x3FB999999999999A), (2, 0x3FE69FBE76C8B439)] [] []) 0x31012000
      (fun t => t.bq == ⟨0x3FE47202784519BD, 0xBFF47202784519BD, 0x3FE47202784519BD, 0xBFF24970C7AD6898,
        0x3FDA6A50A3732B88⟩) = true := by
  decide +kernel

/-- Step 14 of P2: one more sample on channel 0. -/
theorem test_biquad_proc :
    after (biquad.setDelay 0 biquadEnd) 0x38610000
      (fun t => t.getX 6 == 0xBD8EB55A && t.getDelay 0 == ⟨0x3F800000, 0x3E800000, 0xBD8EB55A, 0xBE3EAFAF⟩) = true := by
  decide +kernel

/-- V60-11 -/
theorem test_biquad_proc_channel : faults biquad 0x38210002 2 2 = true := by decide +kernel

/-- V43-7, on channel 1. -/
theorem test_biquad_buf :
    after biquad 0x39012001
      (fun t => elems .b32 t.dmem 0x200 5 == biquadOut && t.getDelay 1 == biquadEnd && t.getDelay 0 == biquad.getDelay 0) =
      true := by
  decide +kernel

/-- V60-6, V60-7: the bound to the byte, and no wrap in it. -/
theorem test_biquad_buf_bound :
    (faults (machine (excfg .b32) [] [(1, 0xFFF0), (2, 5)] []) 0x39012000 5 0xFFF0 &&
      after (machine (excfg .b32) [] [(1, 0xFFF0), (2, 4)] []) 0x39012000 (fun _ => true) &&
      faults (machine (excfg .b32) [] [(1, 0xFFFFFFFC), (2, 0xFFFFFFFF)] []) 0x39012000 5 0xFFFFFFFC) = true := by
  decide +kernel

/-- V43-8 -/
theorem test_biquad_opt :
    after biquad 0x3A012000 (fun t => elems .b32 t.dmem 0x200 5 == biquadOut && t.getDelay 0 == biquadEnd) = true := by
  decide +kernel

/-- V60-2, V60-3: channel before count, count before regions. -/
theorem test_biquad_opt_order :
    (faults (machine (excfg .b32) [] [(1, 0x102), (2, 0)] []) 0x3A012000 3 0 &&
      faults (machine (excfg .b32) [] [(1, 0x102), (2, 1)] []) 0x3A012003 2 3) = true := by
  decide +kernel

/-- V43-8: the input buffer stays. -/
theorem test_biquad_opt2 :
    after biquad 0x3B312000 (fun t => elems .b32 t.dmem 0x280 5 == biquadOut && elems .b32 t.dmem 0x200 5 == biquadIn &&
      t.getDelay 0 == biquadEnd) = true := by
  decide +kernel

/-- V60-8, V60-9, V60-10 -/
theorem test_biquad_opt2_checks :
    (faults (machine (excfg .b32) [] [(1, 0x102), (3, 0x10000), (2, 2)] []) 0x3B312000 4 0x102 &&
      faults (machine (excfg .b32) [] [(1, 0x100), (3, 0x104), (2, 2)] []) 0x3B312000 6 0x104 &&
      after (machine (excfg .b32) [] [(1, 0x100), (3, 0x108), (2, 2)] []) 0x3B312000 (fun _ => true)) = true := by
  decide +kernel

/-- Step 7 of P4, in binary64. -/
theorem test_biquad_mbuf :
    after { machine (excfg .b64) [] [(2, 3), (4, 0x400)]
        (put .b64 0x200 [0x3FF0000000000000, 0xBFF0000000000000, 0x3FE0000000000000]
          (put .b64 0x240 [0x3FD0000000000000, 0x3FD0000000000000, 0x3FD0000000000000] (putTable 0x400 0x200 0x240 []))) with
        bq := ⟨0x3FE47202784519BD, 0xBFF47202784519BD, 0x3FE47202784519BD, 0xBFF24970C7AD6898, 0x3FDA6A50A3732B88⟩ }
      0x3C042000
      (fun t => elems .b64 t.dmem 0x200 3 == [0x3FE47202784519BD, 0xBFF2FBF62C81FB00, 0x3FE3B990617C4368] &&
        elems .b64 t.dmem 0x240 3 == [0x3FC47202784519BD, 0x3F9760C4BC31EBD8, 0xBFA465088F7BA0F4] &&
        t.getDelay 1 == ⟨0x3FD0000000000000, 0x3FD0000000000000, 0xBFA465088F7BA0F4, 0x3F9760C4BC31EBD8⟩) = true := by
  decide +kernel

/-- V60-16, V60-17, V60-18 -/
theorem test_biquad_mbuf_checks :
    (faults (machine (excfg .b32) [] [(4, 0x400), (2, 3)] (putTable 0x400 0x200 0xFFF8 [])) 0x3C042000 5 0xFFF8 &&
      after (machine (excfg .b32) [] [(4, 0x400), (2, 0)] (putTable 0x400 0x201 0xFFFFFFFF [])) 0x3C042000
        (fun _ => true) &&
      faults (machine (excfg .b32) [] [(4, 0xFFFC), (2, 0)] []) 0x3C042000 5 0xFFFC) = true := by
  decide +kernel

/-- R255 with V43-7's samples on both channels. -/
theorem test_biquad_mopt :
    after biquad 0x3D042000 (fun t => elems .b32 t.dmem 0x200 5 == biquadOut && elems .b32 t.dmem 0x240 5 == biquadOut &&
      t.getDelay 0 == biquadEnd && t.getDelay 1 == biquadEnd) = true := by
  decide +kernel

/-- R256 with V43-7's samples on both channels: the input buffers stay. -/
theorem test_biquad_mopt2 :
    after biquad 0x3E542000 (fun t => elems .b32 t.dmem 0x280 5 == biquadOut && elems .b32 t.dmem 0x2C0 5 == biquadOut &&
      elems .b32 t.dmem 0x240 5 == biquadIn && t.getDelay 1 == biquadEnd) = true := by
  decide +kernel

/-! ## State-variable filter (V44, V60) -/

/-- Step 6 of P3, with coefficients and states that it clears. -/
theorem test_svf_reset :
    after (State.setSvf { svf .hPrev with svf := ⟨1, 2, 3⟩ } 1 ⟨4, 5, 6⟩) 0x40010000
      (fun t => t.svf == ⟨0, 0, 0x3F800000⟩ && t.getSvf 1 == ⟨0, 0, 0⟩) = true := by
  decide +kernel

/-- V44-1 -/
theorem test_svf_setc_accepts :
    after { three 0x447A0000 0x3F34FDF4 0 with svf := ⟨0, 0, 0x473B8000⟩ } 0x41512000
      (fun t => t.getR 5 == 1 && t.svf == svfCoefs) = true := by
  decide +kernel

/-- V44-3: equality rejects. -/
theorem test_svf_setc_rejects :
    after { three 0x45FA0000 0x3F800000 0 with svf := ⟨0, 0, 0x473B8000⟩ } 0x41512000
      (fun t => t.getR 5 == 0 && t.svf == ⟨0, 0, 0x473B8000⟩) = true := by
  decide +kernel

/-- V44-2's operands. -/
theorem test_svf_setu :
    after { three 0x463B8000 0x3F34FDF4 0 with svf := ⟨0, 0, 0x473B8000⟩ } 0x42012000
      (fun t => t.svf == ⟨0x3FB504F3, 0x3FB50BF3, 0x473B8000⟩) = true := by
  decide +kernel

/-- V44-7 and V44-8, second sample, with the first one's state and input +0 (`x[2]`). -/
theorem test_svf_proc_hp :
    (after ((svf .hPrev).setSvf 0 ⟨0x3F800000, 0x3E05F214, 0x3C8C2ADB⟩) 0x43620000 (fun t => t.getX 6 == 0xBF97AE9A) &&
      after ((svf .lPrev).setSvf 0 ⟨0x3F800000, 0x3E05F214, 0x3C8C2ADB⟩) 0x43620000 (fun t => t.getX 6 == 0xBE4EFA2C)) =
      true := by
  decide +kernel

/-- The same. -/
theorem test_svf_proc_bp :
    after ((svf .hPrev).setSvf 0 ⟨0x3F800000, 0x3E05F214, 0x3C8C2ADB⟩) 0x43620010 (fun t => t.getX 6 == 0xBCC641B0) =
      true := by
  decide +kernel

/-- The same, on channel 1 and with the state it leaves. -/
theorem test_svf_proc_lp :
    after ((svf .lPrev).setSvf 1 ⟨0x3F800000, 0x3E05F214, 0x3C8C2ADB⟩) 0x43620021
      (fun t => t.getX 6 == 0x3CFC00D8 && t.getSvf 1 == ⟨0xBE4EFA2C, 0x3DD5BE4F, 0x3CFC00D8⟩) = true := by
  decide +kernel

/-- V44-10 -/
theorem test_svf_frame :
    after (svf .hPrev) 0x44530000
      (fun t => elems .b32 t.dmem 0x300 3 == [0x3F34FDF4, 0x3DBD662C, 0x3C46325C]) = true := by
  decide +kernel

/-- V60-19 -/
theorem test_svf_frame_bound :
    (faults (machine (excfg .b32) [] [(3, 0xFFF8)] []) 0x44310000 5 0xFFF8 &&
      after (machine (excfg .b32) [] [(3, 0xFFF4)] []) 0x44310000 (fun _ => true)) = true := by
  decide +kernel

/-- V44-7: the three outputs. -/
theorem test_svf_buf :
    ([(0x45012001, [0x3F800000, 0xBF97AE9A, 0x3F9C1048]), (0x45012011, [0x3E05F214, 0xBCC641B0, 0x3E0A87DC]),
      (0x45012021, [0x3C8C2ADB, 0x3C6477E9, 0x3D01998F])] : List (Word × List Pat)).all
      (fun p => after (svf .hPrev) p.1 fun t => elems .b32 t.dmem 0x200 3 == p.2) = true := by
  decide +kernel

/-- V44-7 on both channels. -/
theorem test_svf_mbuf :
    ([(0x46042000, [0x3F800000, 0xBF97AE9A, 0x3F9C1048]), (0x46042010, [0x3E05F214, 0xBCC641B0, 0x3E0A87DC]),
      (0x46042020, [0x3C8C2ADB, 0x3C6477E9, 0x3D01998F])] : List (Word × List Pat)).all
      (fun p => after (svf .hPrev) p.1 fun t => elems .b32 t.dmem 0x200 3 == p.2 && elems .b32 t.dmem 0x240 3 == p.2) =
      true := by
  decide +kernel

/-! ## The machine around a command -/

/-- An illegal word faults with `FINFO = 0` (section 2.6 of the vectors). -/
theorem test_illegal_word : faults biquad 0x08400005 1 0 = true := by decide +kernel

/-- V60-20: a `CMD` write in `FAULT` is dropped. -/
theorem test_fault_drops_command :
    step { State.reset with run := .fault, cause := 4, finfo := 0x102, fcmd := 0x04210002, host := [.issue 0] } =
      .next { State.reset with run := .fault, cause := 4, finfo := 0x102, fcmd := 0x04210002 } :=
  rfl

/-- From reset the host issues a word: the first step accepts it, the second runs it (log 9). -/
theorem test_host_issues_from_reset :
    (match step { State.reset with host := [.issue 0x01100100] } with
      | .next t => t.run == .busy && (match step t with
        | .next u => u.run == .idle && u.getR 1 == 0x100
        | _ => false)
      | _ => false) = true := by
  decide +kernel

/-! ## Hypotheses that can be met: a state and operands for every statement that has hypotheses -/

/-- `EXCFG` in `BUSY`, about to execute `w`, with a list of the host's. -/
def busy (w : Word) (host : List HostTx) : State := { State.reset with run := .busy, cmd := w, host := host }

/-- `EXCFG` in a fault, with a list of the host's. -/
def faulted (host : List HostTx) : State :=
  { State.reset with run := .fault, cause := 4, finfo := 0x102, fcmd := 0x04210002, host := host }

/-- The machine `biquad` about to store `x[1]` at the last element of DMEM: `ST x1, 0(r6)`, `r[6] = 0xFFFC`. -/
def storing : State := { (biquad.setR 6 0xFFFC) with run := .busy, cmd := 0x05160000 }

/-- The next state of an outcome meets `p`. -/
def meets (o : Host.Outcome State Fault Refusal) (p : State → Bool) : Bool :=
  match o with
  | .next t => p t
  | _ => false

theorem next_of_meets {o : Host.Outcome State Fault Refusal} {p : State → Bool} (h : meets o p = true) :
    ∃ t, o = .next t ∧ p t = true := by
  cases o with
  | next t => exact ⟨t, rfl, h⟩
  | fault _ => cases h
  | refused _ => cases h

theorem next_of_step {o : Host.Outcome State Fault Refusal} (h : meets o (fun _ => true) = true) : ∃ t, o = .next t :=
  (next_of_meets h).imp fun _ ht => ht.1

theorem test_witness_DecodeOfEncodedCommand :
    Instr.wellFormed (.polyRat 15 1 2 4 255) = true ∧ Instr.wellFormed (.polyHorner 0 1 2 1) = true := by
  decide

theorem test_witness_EncodeOfDecodedWord : decode 0x0841000A#32 = .ok (.mfc 4 .y1 1) := by decide +kernel

theorem test_witness_DecoderAcceptsExactlyTheTable :
    (0x07100005#32 &&& 0xFF0FFF00#32 = 0x07000000#32 ∧ imm8Field 0x07100005#32 ≤ 5) := by
  decide

theorem test_witness_StepRunsTheDecodedCommand :
    buildLegal State.reset.build = true ∧ decode (0x01100100#32) = .ok (.setr 1 0x0100) ∧
    CommandTurn (busy 0x01100100 []) (busy 0x01100100 []) ∧
    CommandTurn (busy 0x01100100 [.read 0 .w1]) (busy 0x01100100 [.read 0 .w1]) ∧
    CommandTurn (busy 0x01100100 [.write 0 .w8 1]) (busy 0x01100100 [.write 0 .w8 1]) ∧
    CommandTurn (busy 0x01100100 [.wait, .reset]) (busy 0x01100100 [.reset]) :=
  ⟨by decide +kernel, by decide +kernel, ⟨rfl, .inl ⟨rfl, rfl⟩⟩, ⟨rfl, .inr (.inl ⟨_, _, _, rfl, rfl⟩)⟩,
    ⟨rfl, .inr (.inr (.inl ⟨_, _, _, _, rfl, rfl⟩))⟩, ⟨rfl, .inr (.inr (.inr ⟨_, rfl, rfl⟩))⟩⟩

theorem test_witness_IllegalWordFaults :
    buildLegal State.reset.build = true ∧ CommandTurn (busy 0x09000000 []) (busy 0x09000000 []) ∧
    decode (0x09000000#32) = .error .unlistedOpcode :=
  ⟨by decide +kernel, ⟨rfl, .inl ⟨rfl, rfl⟩⟩, by decide +kernel⟩

theorem test_witness_StepAndCommandsAlwaysAnswer :
    buildLegal { excfg .b64 with nch := 16, memBytes := 2 ^ 31 } = true ∧
    buildLegal { excfg .b32 with nch := 1, memBytes := 8 } = true ∧ buildLegal { excfg .b32 with nch := 17 } = false ∧
    buildLegal { excfg .b32 with memBytes := 12 } = false := by
  decide +kernel

theorem test_witness_FaultsArePrecise :
    Instr.wellFormed (.ld 1 1 2) = true ∧ State.reset.run = .idle ∧
    ∃ t, exec (.ld 1 1 2) State.reset = .next t ∧ t.run = .fault :=
  ⟨rfl, rfl, (next_of_meets (p := fun t => t.run == .fault) (by decide +kernel)).imp fun _ h => ⟨h.1, eq_of_beq h.2⟩⟩

/-- Some command changes each part of the state. -/
theorem test_witness_OnlyTheListedCommandsWrite :
    (after biquad 0x06310000 (fun t => t.x != biquad.x) && after biquad 0x0110FFFF (fun t => t.r != biquad.r) &&
      after biquad 0x34012002 (fun t => t.bq != biquad.bq) && after biquad 0x38210000 (fun t => t.bqd != biquad.bqd) &&
      after biquad 0x40010000 (fun t => t.svf.fs != biquad.svf.fs) &&
      after (svf .hPrev) 0x43210000 (fun t => t.svfc != (svf .hPrev).svfc) &&
      after biquad 0x05130000 (fun t => t.dmem != biquad.dmem)) = true := by
  decide +kernel

theorem test_witness_FaultIsStickyUntilReset :
    buildLegal (faulted []).build = true ∧ (faulted []).run = .fault ∧
    ({ faulted [] with waiting := some 0 } : State).waiting = some 0 ∧
    (faulted [.issue 0]).host = .issue 0 :: [] ∧ (faulted [.readSys .cause]).host = .readSys .cause :: [] ∧
    hostInRange (faulted []).build 0xFFF8 .w8 = true ∧ (faulted [.read 0xFFF8 .w8]).waiting = none ∧
    (∃ t, step (faulted [.read 0xFFF8 .w8]) = .next t) ∧ (∃ t, step (faulted [.write 0 .w1 7]) = .next t) ∧
    ∃ t, step (faulted [.reset]) = .next t :=
  ⟨by decide +kernel, rfl, rfl, rfl, rfl, by decide +kernel, rfl, next_of_step (by decide +kernel), next_of_step (by decide +kernel),
    next_of_step (by decide +kernel)⟩

theorem test_witness_HostResetLeavesTheResetState :
    buildLegal (faulted []).build = true ∧ (faulted [.reset]).host = .reset :: [] ∧ (faulted [.reset]).waiting = none ∧
    (busy 0 [.reset, .wait]).host = .reset :: [.wait] ∧ (busy 0 [.reset, .wait]).run = .busy :=
  ⟨by decide +kernel, rfl, rfl, rfl, rfl⟩

theorem test_witness_DmemInvariantIsKept :
    DmemCanonical storing ∧ DmemInside storing ∧ ∃ t, step storing = .next t := by
  refine ⟨?_, ?_, next_of_step (by decide +kernel)⟩
  · show Memory.wf storing.dmem
    decide +kernel
  · show ∀ c ∈ storing.dmem, c.1 < 65536
    decide +kernel

theorem test_witness_RegistersStayInFormat : RegistersFit storing ∧ ∃ t, step storing = .next t := by
  refine ⟨?_, next_of_step (by decide +kernel)⟩
  unfold RegistersFit coefFits delayFits svfCoefFits svfChanFits
  decide +kernel

theorem test_witness_AbsentChannelsStayUntouched : AbsentChannelsZero storing ∧ ∃ t, step storing = .next t := by
  refine ⟨?_, next_of_step (by decide +kernel)⟩
  unfold AbsentChannelsZero
  decide +kernel

theorem test_witness_FaultRegistersStayLegal :
    FaultRegsLegal (faulted [.wait]) ∧ FaultRegsLegal storing ∧ (∃ t, step (faulted [.wait]) = .next t) ∧
      ∃ t, step storing = .next t := by
  refine ⟨?_, ?_, next_of_step (by decide +kernel), next_of_step (by decide +kernel)⟩
  · exact And.intro (fun _ => ⟨.align, rfl⟩) fun h => absurd rfl h
  · exact And.intro (fun h => by cases h) fun _ => ⟨rfl, rfl, rfl⟩

theorem test_witness_BuildNeverChanges : ∃ t, step storing = .next t := next_of_step (by decide +kernel)

theorem test_witness_MemReadAndMemWriteAreLittleEndian :
    Memory.wf biquad.dmem ∧ 65532 % 4 = 0 ∧ 65532 + 4 ≤ (excfg .b32).memBytes ∧ 65528 % 8 = 0 ∧
    65528 + 8 ≤ (excfg .b64).memBytes ∧ (5 : Nat) < 0x200 := by
  refine ⟨?_, ?_⟩ <;> decide +kernel

theorem test_witness_HostAccessesOfDmem :
    buildLegal State.reset.build = true ∧ State.reset.run = .idle ∧ (faulted []).run = .fault ∧
    State.reset.waiting = none ∧ DmemCanonical State.reset ∧ 0xFFFF % hostBytes .w1 = 0 ∧
    0xFFFF + hostBytes .w1 ≤ State.reset.build.memBytes ∧ ¬0xFFFE + hostBytes .w4 ≤ State.reset.build.memBytes ∧
    ({ State.reset with host := [.write 0xFFFF .w1 7] } : State).host = .write 0xFFFF .w1 7 :: [] ∧
    (faulted [.read 0xFFFE .w4]).host = .read 0xFFFE .w4 :: [] :=
  ⟨by decide +kernel, rfl, rfl, rfl, ⟨.nil, by simp [State.reset, State.powerOn]⟩, by decide, by decide, by decide, rfl,
    rfl⟩

theorem test_witness_HostAccessWaitsWhileBusy :
    (busy 0x01100100 [.read 0 .w4]).run = .busy ∧ (∃ t, step (busy 0x01100100 [.read 0 .w4]) = .next t) ∧
    ∃ t, step (busy 0x01100100 [.write 0 .w8 1]) = .next t :=
  ⟨rfl, next_of_step (by decide +kernel), next_of_step (by decide +kernel)⟩

theorem test_witness_CommandWritesByRunState :
    buildLegal State.reset.build = true ∧ State.reset.run = .idle ∧ State.reset.waiting = none ∧
    ({ State.reset with host := [.issue 1] } : State).host = .issue 1 :: [] ∧ (busy 0 [.issue 1]).run = .busy ∧
    (busy 0 [.issue 1]).waiting = none ∧ ({ busy 0 [.issue 1] with waiting := some 2 } : State).waiting = some 2 ∧
    ({ State.reset with waiting := some 2 } : State).waiting = some 2 ∧
    ({ faulted [] with waiting := some 2 } : State).waiting = some 2 :=
  ⟨by decide +kernel, rfl, rfl, rfl, rfl, rfl, rfl, rfl, rfl⟩

theorem test_witness_SystemRegisterValues :
    State.reset.run = .idle ∧ (busy 0 []).run = .busy ∧ (faulted []).run = .fault ∧ 1 ≤ State.reset.build.nch ∧
    State.reset.build.nch ≤ 16 ∧ buildLegal State.reset.build = true ∧
    (faulted [.readSys .fcmd]).host = .readSys .fcmd :: [] ∧ (busy 0 [.readSys .status]).run = .busy :=
  ⟨rfl, rfl, rfl, by decide, by decide, by decide +kernel, rfl, rfl⟩

theorem test_witness_IrqIsTheFaultBit :
    ∃ t, step (faulted [.reset]) = .next t ∧ (faulted [.reset]).irq = true ∧ t.irq = false :=
  (next_of_meets (p := fun t => !t.irq) (by decide +kernel)).imp fun _ h => ⟨h.1, rfl, by simpa using h.2⟩

theorem test_witness_NopChangesNothing :
    (0x00000001#32).toNat / 2 ^ 24 = 0 ∧ (0x00FFFFFF#32).toNat / 2 ^ 24 = 0 ∧ 0x00000001#32 ≠ 0 := by
  decide

theorem test_witness_LoadReadsOneElement :
    RegionOk (excfg .b32) ((biquad.setR 6 0xFFFC).addOffset 6 0) 1 ∧ RegionOk (excfg .b32) (biquad.addOffset 1 0xFE00) 1 := by
  unfold RegionOk
  decide +kernel

theorem test_witness_StoreWritesOneElement :
    DmemCanonical storing ∧ RegionOk storing.build (storing.addOffset 6 0) 1 := by
  unfold DmemCanonical RegionOk
  decide +kernel

theorem test_witness_MoveCommandsCopyPatterns :
    (1 : Chan).val < biquad.build.nch ∧ biquad.build.nch ≤ (2 : Chan).val ∧ Csr.perChannel .y1 = true := by
  decide +kernel

theorem test_witness_PolynomialResults :
    (255 : BitVec 8) ≠ 0 ∧ RegionOk (excfg .b32) 0xFC04 255 ∧ RegionOk (excfg .b32) 0x100 255 ∧
    RegionOk (excfg .b32) 0xFFF8 2 := by
  unfold RegionOk
  decide +kernel

theorem test_witness_EstrinResults :
    (1 : BitVec 8) ≠ 0 ∧ RegionOk (excfg .b64) 0xFFF8 1 ∧ 2 ≤ [0#64, 1].length := by
  unfold RegionOk
  decide +kernel

theorem test_witness_ElementRegionFaults :
    (3 : BitVec 8) ≠ 0 ∧ (0x102#32).toNat % eb .b32 ≠ 0 ∧ (0xFFF8#32).toNat % eb .b32 = 0 ∧
    (excfg .b32).memBytes < (0xFFF8#32).toNat + 3 * eb .b32 ∧ RegionOk (excfg .b32) 0xFFF4 3 := by
  unfold RegionOk
  decide +kernel

theorem test_witness_EvaluationAtZeroGivesTheConstantTerm :
    isZero .b32 0x80000000 = true ∧ fits .b32 0x40E00000 = true ∧ isFinite .b32 0x40E00000 = true ∧
    isFinite .b32 0x40000000 = true ∧ isFinite .b32 0x7F7FFFFF = true := by
  decide +kernel

theorem test_witness_ReferenceVariantResults :
    (excfg .b32).refs = .nearest ∧ (excfg .b64).refs = .nearest ∧ isNan .b32 0x7FA00000 = true ∧
    realOf .b32 0xC1200000 = some (-10) ∧ (-10 : ℚ) < 0 := by
  refine ⟨rfl, rfl, ?_, ?_, ?_⟩ <;> decide +kernel

/-- An operand for each of COSRED's three cases: 4.0 lies above PI, -4.0 below -PI, 3.0 between. -/
theorem test_witness_FastVariantResults :
    flt .b32 (piC .b32) (ffmod .b32 0x40800000 (twoPiC .b32)) = true ∧
    flt .b32 (piC .b32) (ffmod .b32 0xC0800000 (twoPiC .b32)) = false ∧
    flt .b32 (ffmod .b32 0xC0800000 (twoPiC .b32)) (fneg .b32 (piC .b32)) = true ∧
    flt .b32 (piC .b32) (ffmod .b32 0x40400000 (twoPiC .b32)) = false ∧
    flt .b32 (ffmod .b32 0x40400000 (twoPiC .b32)) (fneg .b32 (piC .b32)) = false := by
  decide +kernel

theorem test_witness_CosineReductionBringsIntoRange :
    isFinite .b32 0x42C80000 = true ∧ isFinite .b32 0x7F800000 = false := by
  decide +kernel

theorem test_witness_BitManipulationLogarithm :
    log2Operand .b32 0x41200000 = 0x41200000 ∧ log2Operand .b64 0x4024000000000000 = 0x41200000 := by
  decide +kernel

theorem test_witness_ConstantPatterns : (State.powerOn (excfg .b32)).fmt = .b32 ∧ (State.powerOn (excfg .b64)).fmt = .b64 :=
  ⟨rfl, rfl⟩

theorem test_witness_ComparisonsFollowTheValues :
    isNan .b32 0x7FC00000 = true ∧ flt .b32 0x80000001 0x00000000 = true ∧ fle .b32 0x80000000 0x00000000 = true := by
  decide +kernel

theorem test_witness_RemainderIsExact :
    fits .b32 0xC1200000 = true ∧ isNan .b32 0x7FC00000 = true ∧ magOf .b32 0xFF800000 = infMag .b32 ∧
    isFinite .b32 0xC1200000 = true ∧ realOf .b32 0xC1200000 = some (-10) ∧
    realOf .b32 0x40400000 = some 3 := by
  refine ⟨by decide +kernel, by decide +kernel, by decide +kernel, by decide +kernel, ?_, ?_⟩ <;> decide +kernel

theorem test_witness_ArithmeticRoundsToNearestEven :
    realOf .b32 0x40400000 = some 3 ∧ realOf .b32 0xC1200000 = some (-10) := by
  decide +kernel

theorem test_witness_SpecialOperandsFollowIeee :
    isNan .b64 0x7FF4000000000000 = true ∧ isFinite .b64 0x8000000000000001 = true ∧
    isZero .b64 0x8000000000000001 = false ∧ signOf .b64 0x8000000000000001 = true ∧
    fits .b64 0x8000000000000001 = true ∧ isNan .b64 0x8000000000000001 = false ∧ realOf .b32 0x40400000 = some 3 ∧
    realOf .b32 0xC0400000 = some (-3) ∧ realOf .b32 0xC1200000 = some (-10) ∧
    realOf .b32 0x41F00000 = some (-(3 * -10)) := by
  decide +kernel

theorem test_witness_SignChangesAndConversions :
    fits .b32 0xFFA00000 = true ∧ isNan .b32 0xFFA00000 = true ∧ isNan .b32 0xBF800000 = false ∧
    realOf .b64 0xC024000000000000 = some (-10) ∧ realOf .b32 0xC1200000 = some (-10) ∧
    isNan .b64 0x7FF0000000000001 = true ∧ (-127 : ℤ) ≤ 128 := by
  refine ⟨?_, ?_, ?_, ?_, ?_, ?_, by decide⟩ <;> decide +kernel

theorem test_witness_BiquadSampleResult : (1 : Chan).val < biquad.build.nch := by decide +kernel

/-- For BiquadBufferResult and BlockOptimizedResults: a buffer that ends where DMEM ends, and disjoint ones that touch. -/
theorem test_witness_BiquadBufferResult :
    (1 : Chan).val < biquad.build.nch ∧ DmemCanonical biquad ∧ RegionOk biquad.build (biquad.getR 1) (biquad.getR 2).toNat ∧
    RegionOk biquad.build 0xFFEC 5 ∧ RegionOk biquad.build 0x102 0 := by
  unfold DmemCanonical RegionOk
  decide +kernel

theorem test_witness_BlockOptimizedResults :
    (1 : Chan).val < biquad.build.nch ∧ DmemCanonical biquad ∧ 2 ≤ (biquad.getR 2).toNat ∧
    RegionOk biquad.build (biquad.getR 1) (biquad.getR 2).toNat ∧ RegionOk biquad.build (biquad.getR 3) (biquad.getR 2).toNat ∧
    Disjoint2 (biquad.getR 1) (biquad.getR 3) ((biquad.getR 2).toNat * eb biquad.fmt) ∧ Disjoint2 0x100 0x108 (2 * eb .b32) := by
  unfold DmemCanonical RegionOk Disjoint2
  decide +kernel

/-- For its last clause: the inputs and outputs of both channels. -/
theorem test_witness_OptimizedFormsEqualTheNaiveForms_channels :
    biquad.build.nch ≤ 16 ∧ TableOk biquad.build (biquad.getR 4) ∧ TableOk biquad.build (biquad.getR 5) ∧
    (∀ e : Chan, e.val < biquad.build.nch →
      RegionOk biquad.build (biquad.tableWord (biquad.getR 4) e.val) (biquad.getR 2).toNat ∧
      RegionOk biquad.build (biquad.tableWord (biquad.getR 5) e.val) (biquad.getR 2).toNat) ∧
    (∀ e g : Chan, e.val < biquad.build.nch → g.val < biquad.build.nch →
      Disjoint2 (biquad.tableWord (biquad.getR 4) e.val) (biquad.tableWord (biquad.getR 5) g.val)
        ((biquad.getR 2).toNat * eb biquad.fmt) ∧
      (e ≠ g →
        Disjoint2 (biquad.tableWord (biquad.getR 4) e.val) (biquad.tableWord (biquad.getR 4) g.val)
          ((biquad.getR 2).toNat * eb biquad.fmt) ∧
        Disjoint2 (biquad.tableWord (biquad.getR 5) e.val) (biquad.tableWord (biquad.getR 5) g.val)
          ((biquad.getR 2).toNat * eb biquad.fmt))) := by
  unfold TableOk RegionOk Disjoint2
  refine ⟨?_, ?_, ?_, ?_, ?_⟩ <;> decide +kernel

theorem test_witness_OptimizedFormsEqualTheNaiveForms :
    DmemCanonical biquad ∧ 2 ≤ (biquad.getR 2).toNat ∧ (0 : Chan).val < biquad.build.nch ∧
    RegionOk biquad.build (biquad.getR 1) (biquad.getR 2).toNat ∧ RegionOk biquad.build (biquad.getR 3) (biquad.getR 2).toNat ∧
    Disjoint2 (biquad.getR 1) (biquad.getR 3) ((biquad.getR 2).toNat * eb biquad.fmt) := by
  unfold DmemCanonical RegionOk Disjoint2
  decide +kernel

theorem test_witness_MultiChannelFormsRunChannelByChannel :
    biquad.build.nch ≤ 16 ∧ TableOk biquad.build (biquad.getR 4) ∧ TableOk biquad.build (biquad.getR 5) ∧
    2 ≤ (biquad.getR 2).toNat ∧
    ∀ c : Chan, c.val < biquad.build.nch →
      RegionOk biquad.build (biquad.tableWord (biquad.getR 4) c.val) (biquad.getR 2).toNat ∧
      RegionOk biquad.build (biquad.tableWord (biquad.getR 5) c.val) (biquad.getR 2).toNat ∧
      Disjoint2 (biquad.tableWord (biquad.getR 4) c.val) (biquad.tableWord (biquad.getR 5) c.val)
        ((biquad.getR 2).toNat * eb biquad.fmt) := by
  unfold TableOk RegionOk Disjoint2
  decide +kernel

theorem test_witness_SvfResetAndCoefficientResults :
    fge .b32 0x3F800000 (fsub .b32 (two .b32) 0x3F800000) = true ∧
    fge .b32 0x3E05F214 (fsub .b32 (two .b32) 0x3FB50BF3) = false := by
  decide +kernel

theorem test_witness_SvfSampleResults :
    (1 : Chan).val < (svf .lPrev).build.nch ∧ DmemCanonical (svf .lPrev) ∧
    RegionOk (svf .lPrev).build ((svf .lPrev).getR 5) 3 ∧ RegionOk (svf .lPrev).build 0xFFF4 3 := by
  unfold DmemCanonical RegionOk
  decide +kernel

theorem test_witness_SvfBufferResults :
    (0 : Chan).val < (svf .hPrev).build.nch ∧ DmemCanonical (svf .hPrev) ∧
    RegionOk (svf .hPrev).build ((svf .hPrev).getR 1) ((svf .hPrev).getR 2).toNat := by
  unfold DmemCanonical RegionOk
  decide +kernel

theorem test_witness_SilenceStaysSilent :
    isFinite .b32 0x3E05F214 = true ∧ isFinite .b32 0x3FB50BF3 = true ∧ isFinite .b64 0xFFEFFFFFFFFFFFFF = true ∧
    isZero .b64 0x8000000000000000 = true := by
  decide +kernel

theorem test_witness_ChannelAndCountFaults :
    processingChannel (.bqOpt2 3 1 2 2) = some 2 ∧ biquad.build.nch ≤ (2 : Chan).val ∧
    ((biquad.setR 2 1).getR 2).toNat < 2 ∧ ((biquad.setR 2 0).getR 2).toNat < 2 ∧ (1 : Chan).val < biquad.build.nch := by
  decide +kernel

theorem test_witness_BufferRegionFaults :
    (1 : Chan).val < (excfg .b32).nch ∧ 2 ≤ (2#32).toNat ∧ (0x102#32).toNat % eb .b32 ≠ 0 ∧
    (0xFFFC#32).toNat % eb .b32 = 0 ∧ (excfg .b32).memBytes < (0xFFFC#32).toNat + 2 * eb .b32 ∧
    (excfg .b32).memBytes < (0xFFF8#32).toNat + 3 * eb .b32 ∧ (excfg .b32).memBytes < (0xFFFC#32).toNat + (excfg .b32).nch * 4 ∧
    RegionOk (excfg .b32) 0x100 2 ∧ RegionOk (excfg .b32) 0x104 2 ∧ ¬Disjoint2 0x100 0x104 (2 * eb .b32) := by
  unfold RegionOk Disjoint2
  decide +kernel

/-- A table whose second buffer leaves DMEM, and two tables whose buffers of channel 1 overlap. -/
theorem test_witness_MultiChannelFaults :
    let s := machine (excfg .b32) [] [(2, 2), (4, 0x400), (5, 0x500)] (putTable 0x400 0x200 0xFFFC (putTable 0x500 0x280 0x300 []))
    let u := machine (excfg .b32) [] [(2, 2), (4, 0x400), (5, 0x500)] (putTable 0x400 0x200 0x240 (putTable 0x500 0x280 0x244 []))
    TableOk s.build (s.getR 4) ∧ TableOk s.build (s.getR 5) ∧ RegionOk s.build (s.tableWord (s.getR 4) 0) 2 ∧
    s.build.memBytes < (s.tableWord (s.getR 4) 1).toNat + 2 * eb s.fmt ∧
    (∀ e : Chan, e.val < u.build.nch →
      RegionOk u.build (u.tableWord (u.getR 4) e.val) 2 ∧ RegionOk u.build (u.tableWord (u.getR 5) e.val) 2) ∧
    Disjoint2 (u.tableWord (u.getR 4) 0) (u.tableWord (u.getR 5) 0) (2 * eb u.fmt) ∧
    ¬Disjoint2 (u.tableWord (u.getR 4) 1) (u.tableWord (u.getR 5) 1) (2 * eb u.fmt) := by
  unfold TableOk RegionOk Disjoint2
  decide +kernel

theorem test_witness_ChannelsAreIndependent :
    processingChannel (.bqProc 2 1 0) = some 0 ∧ (1 : Chan) ≠ 0 ∧ ∃ t, exec (.bqProc 2 1 0) State.reset = .next t :=
  ⟨rfl, by decide, next_of_step (by decide +kernel)⟩

end Sys2Proof.Tests
end

section
/-! PROOFS. The finite values of a format (00_scope.md R8): magnitudes as integers in units of the least subnormal, strictly
increasing in the magnitude field, and the real value of a pattern through them. -/

namespace Sys2Proof.Machine

/-! ## Magnitudes as integers: the finite values of a format are `± magInt · 2^minExp` -/

/-- The magnitude field `k` in units of the least subnormal. The formula goes on past the finite magnitudes: at `infMag` it
is the value the next binade would begin with, so rounding can be stated without an upper end (R9). -/
def magInt (f : Fmt) (k : ℕ) : ℕ :=
  if k < 2 ^ fracBits f then k else (2 ^ fracBits f + k % 2 ^ fracBits f) * 2 ^ (k / 2 ^ fracBits f - 1)

/-- `t` counts units of the binade `s`: the subnormals and the first normals share binade 0. -/
def InBinade (f : Fmt) (s t : ℕ) : Prop := t ≤ 2 * 2 ^ fracBits f ∧ (s = 0 ∨ 2 ^ fracBits f ≤ t)

theorem magInt_zero (f : Fmt) : magInt f 0 = 0 := by simp [magInt]

theorem magInt_binade {f : Fmt} {s t : ℕ} (h : InBinade f s t) : magInt f (t + s * 2 ^ fracBits f) = t * 2 ^ s := by
  obtain ⟨hle, hs⟩ := h
  have hp : 0 < 2 ^ fracBits f := by positivity
  unfold magInt
  generalize 2 ^ fracBits f = p at *
  rcases lt_trichotomy t (2 * p) with hlt | rfl | hgt
  · by_cases htp : t < p
    · obtain rfl : s = 0 := by omega
      simp [htp]
    · obtain ⟨r, rfl⟩ := Nat.exists_eq_add_of_le (not_lt.1 htp)
      have e : p + r + s * p = r + p * (s + 1) := by ring
      rw [e, if_neg (by rw [← e]; omega), Nat.add_mul_mod_self_left, Nat.add_mul_div_left _ _ hp,
        Nat.mod_eq_of_lt (by omega), Nat.div_eq_of_lt (by omega)]
      simp
  · have e : 2 * p + s * p = p * (s + 2) := by ring
    rw [e, if_neg (by rw [← e]; omega), Nat.mul_mod_right, Nat.mul_div_cancel_left _ hp]
    simp [pow_succ]; ring
  · omega

/-- Every magnitude stands in a binade, below its upper end. -/
theorem exists_binade (f : Fmt) (k : ℕ) :
    ∃ s t, InBinade f s t ∧ t < 2 * 2 ^ fracBits f ∧ k = t + s * 2 ^ fracBits f := by
  have hp : 0 < 2 ^ fracBits f := by positivity
  unfold InBinade
  generalize 2 ^ fracBits f = p at *
  by_cases hk : k < p
  · exact ⟨0, k, by omega, by omega, by omega⟩
  · have h1 := Nat.mod_lt k hp
    have h2 : p * (k / p) + k % p = k := Nat.div_add_mod k p
    have h3 : 1 ≤ k / p := (Nat.one_le_div_iff hp).2 (not_lt.1 hk)
    obtain ⟨s, hs⟩ := Nat.exists_eq_add_of_le h3
    refine ⟨s, p + k % p, by omega, by omega, ?_⟩
    rw [hs] at h2
    nlinarith

theorem magInt_strictMono (f : Fmt) : StrictMono (magInt f) := by
  refine strictMono_nat_of_lt_succ fun k => ?_
  obtain ⟨s, t, hb, hlt, rfl⟩ := exists_binade f k
  have hb' : InBinade f s (t + 1) := ⟨hlt, hb.2.imp_right fun h => h.trans (Nat.le_succ t)⟩
  rw [show t + s * 2 ^ fracBits f + 1 = (t + 1) + s * 2 ^ fracBits f by ring, magInt_binade hb, magInt_binade hb']
  exact Nat.mul_lt_mul_of_pos_right (Nat.lt_succ_self t) (by positivity)

/-- From the binade `s` on every value is a multiple of its unit; below it every value is below `2^fracBits` units. -/
theorem magInt_multiple_or_below (f : Fmt) (s j : ℕ) :
    2 ^ s ∣ magInt f j ∨ (0 < s ∧ magInt f j < 2 ^ fracBits f * 2 ^ s) := by
  obtain ⟨u, t, hb, hlt, rfl⟩ := exists_binade f j
  rw [magInt_binade hb]
  by_cases hsu : s ≤ u
  · exact .inl (Dvd.dvd.mul_left (pow_dvd_pow 2 hsu) t)
  · obtain ⟨d, rfl⟩ := Nat.exists_eq_add_of_lt (not_le.1 hsu)
    refine .inr ⟨by omega, ?_⟩
    calc t * 2 ^ u < 2 * 2 ^ fracBits f * 2 ^ u := Nat.mul_lt_mul_of_pos_right hlt (by positivity)
      _ = 2 ^ fracBits f * 2 ^ (u + 1) := by ring
      _ ≤ 2 ^ fracBits f * 2 ^ (u + d + 1) := Nat.mul_le_mul_left _ (Nat.pow_le_pow_right (by norm_num) (by omega))

/-! ## The value of a finite pattern -/

theorem unpack_of_magOf_lt (f : Fmt) (v : Pat) (h : magOf f v < infMag f) :
    ∃ m e, unpack f v = .fin (signOf f v) m e ∧ m < 2 ^ prec f ∧ minExp f ≤ e ∧
      (m : ℚ) * 2 ^ e = magInt f (magOf f v) * 2 ^ minExp f := by
  have hp : 0 < 2 ^ fracBits f := by positivity
  have hex : magOf f v / 2 ^ fracBits f ≠ 2 ^ expBits f - 1 :=
    ((Nat.div_lt_iff_lt_mul hp).2 h).ne
  have hfr : magOf f v % 2 ^ fracBits f < 2 ^ fracBits f := Nat.mod_lt _ hp
  have hprec : 2 ^ prec f = 2 * 2 ^ fracBits f := by rw [prec, pow_succ, mul_comm]
  by_cases h0 : magOf f v / 2 ^ fracBits f = 0
  · have hlt : magOf f v < 2 ^ fracBits f := (Nat.div_eq_zero_iff_lt hp).1 h0
    refine ⟨magOf f v % 2 ^ fracBits f, minExp f, by rw [unpack, if_neg hex, if_pos h0], by omega, le_rfl, ?_⟩
    rw [magInt, if_pos hlt, Nat.mod_eq_of_lt hlt]
  · have hge : ¬magOf f v < 2 ^ fracBits f := fun h => h0 (Nat.div_eq_of_lt h)
    obtain ⟨d, hd⟩ := Nat.exists_eq_succ_of_ne_zero h0
    refine ⟨2 ^ fracBits f + magOf f v % 2 ^ fracBits f, minExp f + d, ?_, by omega, by omega, ?_⟩
    · rw [unpack, if_neg hex, if_neg h0, hd]
      simp
    rw [magInt, if_neg hge, hd, zpow_add₀ (by norm_num), zpow_natCast, Nat.succ_sub_one]
    push_cast
    ring

theorem unpack_of_magOf_eq (f : Fmt) (v : Pat) (h : magOf f v = infMag f) : unpack f v = .inf (signOf f v) := by
  rw [unpack, h]
  cases f <;> simp [infMag, expBits, fracBits]

theorem realOf_of_magOf_lt (f : Fmt) (v : Pat) (h : magOf f v < infMag f) :
    realOf f v = some ((signed (signOf f v) (magInt f (magOf f v)) : ℚ) * 2 ^ minExp f) := by
  obtain ⟨m, e, hu, -, -, hval⟩ := unpack_of_magOf_lt f v h
  rw [realOf, hu]
  cases signOf f v <;> simp [signed, hval]

theorem realOf_eq_some_iff (f : Fmt) (v : Pat) (z : ℚ) :
    realOf f v = some z ↔
      magOf f v < infMag f ∧ z = (signed (signOf f v) (magInt f (magOf f v)) : ℚ) * 2 ^ minExp f := by
  constructor
  · intro h
    have hlt : magOf f v < infMag f := by
      by_contra hge
      rcases (not_lt.1 hge).lt_or_eq with hgt | heq
      · simp [realOf, unpack_of_isNan f v (decide_eq_true hgt)] at h
      · simp [realOf, unpack_of_magOf_eq f v heq.symm] at h
    rw [realOf_of_magOf_lt f v hlt] at h
    exact ⟨hlt, (Option.some.inj h).symm⟩
  · rintro ⟨hlt, rfl⟩
    exact realOf_of_magOf_lt f v hlt

theorem realOf_pack (f : Fmt) (n : Bool) (k : ℕ) (h : k < infMag f) :
    realOf f (pack f n k) = some ((signed n (magInt f k) : ℚ) * 2 ^ minExp f) := by
  have hk : k < signWeight f := h.trans (infMag_lt f)
  rw [realOf_of_magOf_lt f _ (by rwa [magOf_pack f n k hk]), magOf_pack f n k hk, signOf_pack f n k hk]

end Sys2Proof.Machine
end

section
/-! PROOFS. Rounding (00_scope.md R9): `roundMag` answers the magnitude nearest to what it is told of, the even one at a tie, first without
an upper end and then cut off at `infMag`. -/

namespace Sys2Proof.Machine

/-! ## Rounding to an integer -/

/-- `k` is an integer nearest to `x`, the even one at a tie. -/
def NearestInt (x : ℝ) (k : ℕ) : Prop := |(k : ℝ) - x| ≤ 1 / 2 ∧ (|(k : ℝ) - x| = 1 / 2 → k % 2 = 0)

theorem nearestInt_natCast (k : ℕ) : NearestInt k k := by simp [NearestInt]

theorem NearestInt.le_abs_sub {x : ℝ} {k : ℕ} (h : NearestInt x k) (n : ℤ) :
    |(k : ℝ) - x| ≤ |(n : ℝ) - x| ∧ (|(k : ℝ) - x| = |(n : ℝ) - x| → n ≠ k → k % 2 = 0) := by
  obtain ⟨hle, htie⟩ := h
  by_cases hn : n = k
  · subst hn; simp
  have hfar : (1 : ℝ) ≤ |(n : ℝ) - k| := by
    have : (1 : ℤ) ≤ |n - (k : ℤ)| := Int.one_le_abs (sub_ne_zero.2 hn)
    exact_mod_cast this
  have htri : |(n : ℝ) - k| ≤ |(n : ℝ) - x| + |(k : ℝ) - x| := by
    rw [abs_sub_comm (k : ℝ) x]; exact abs_sub_le _ _ _
  exact ⟨by linarith, fun heq _ => htie (by linarith)⟩

/-- `m` shifted right by `d` places and rounded to the nearest, ties to even, where `sticky` adds a part of a unit of `m`. -/
def roundShift (m d : ℕ) (sticky : Bool) : ℕ :=
  if 2 ^ (d - 1) < m % 2 ^ d ∨ (m % 2 ^ d = 2 ^ (d - 1) ∧ (sticky = true ∨ m / 2 ^ d % 2 = 1)) then m / 2 ^ d + 1
  else m / 2 ^ d

/-- What `roundMag` is told of the magnitude `r`: `m` units of `2^e`, and with `sticky` a part of a further one. -/
def Truncates (m : ℕ) (e : ℤ) (sticky : Bool) (r : ℝ) : Prop :=
  if sticky then (m : ℝ) * 2 ^ e < r ∧ r < ((m : ℝ) + 1) * 2 ^ e else r = (m : ℝ) * 2 ^ e

theorem truncates_exact (m : ℕ) (e : ℤ) : Truncates m e false ((m : ℝ) * 2 ^ e) := rfl

theorem Truncates.le {m : ℕ} {e : ℤ} {st : Bool} {r : ℝ} (h : Truncates m e st r) : (m : ℝ) * 2 ^ e ≤ r := by
  cases st
  · exact (show r = _ from h).ge
  · exact (show _ ∧ _ from h).1.le

theorem Truncates.lt {m : ℕ} {e : ℤ} {st : Bool} {r : ℝ} (h : Truncates m e st r) : r < ((m : ℝ) + 1) * 2 ^ e := by
  cases st
  · rw [show r = _ from h]
    have : (0 : ℝ) < 2 ^ e := by positivity
    linarith
  · exact (show _ ∧ _ from h).2

theorem Truncates.nonneg {m : ℕ} {e : ℤ} {st : Bool} {r : ℝ} (h : Truncates m e st r) : 0 ≤ r :=
  le_trans (by positivity) h.le

theorem Truncates.scale {m : ℕ} {e : ℤ} {st : Bool} {r : ℝ} (h : Truncates m e st r) (c : ℤ) :
    Truncates m (e + c) st (r * 2 ^ c) := by
  have hc : (0 : ℝ) < 2 ^ c := by positivity
  unfold Truncates at *
  rw [zpow_add₀ (by norm_num), ← mul_assoc, ← mul_assoc]
  cases st
  · exact congrArg (· * (2 : ℝ) ^ c) h
  · exact ⟨mul_lt_mul_of_pos_right h.1 hc, mul_lt_mul_of_pos_right h.2 hc⟩

theorem nearestInt_of_lt_half {x : ℝ} {t : ℕ} (h0 : t ≤ x) (h1 : x < t + 1 / 2) : NearestInt x t := by
  have : |(t : ℝ) - x| < 1 / 2 := abs_sub_lt_iff.2 ⟨by linarith, by linarith⟩
  exact ⟨this.le, fun h => absurd h this.ne⟩

theorem nearestInt_of_half_lt {x : ℝ} {t : ℕ} (h0 : (t : ℝ) + 1 / 2 < x) (h1 : x ≤ t + 1) : NearestInt x (t + 1) := by
  have : |((t + 1 : ℕ) : ℝ) - x| < 1 / 2 := by
    push_cast
    exact abs_sub_lt_iff.2 ⟨by linarith, by linarith⟩
  exact ⟨this.le, fun h => absurd h this.ne⟩

theorem nearestInt_of_eq_half {x : ℝ} {t : ℕ} (h : x = t + 1 / 2) :
    NearestInt x (if t % 2 = 1 then t + 1 else t) := by
  subst h
  split
  · refine ⟨?_, fun _ => by omega⟩
    push_cast
    rw [abs_of_nonneg] <;> linarith
  · refine ⟨?_, fun _ => by omega⟩
    rw [abs_of_nonpos] <;> linarith

theorem nearestInt_roundShift {m d : ℕ} {st : Bool} {x : ℝ} (hd : 0 < d) (h : Truncates m (-(d : ℤ)) st x) :
    NearestInt x (roundShift m d st) := by
  obtain ⟨c, rfl⟩ : ∃ c, d = c + 1 := ⟨d - 1, by omega⟩
  have hy : Truncates m 0 st (x * (2 * (2 ^ c : ℕ))) := by
    have := h.scale ((c + 1 : ℕ) : ℤ)
    rw [neg_add_cancel, zpow_natCast, pow_succ'] at this
    exact_mod_cast this
  have hm : (m : ℝ) = 2 * (2 ^ c : ℕ) * (m / 2 ^ (c + 1) : ℕ) + (m % 2 ^ (c + 1) : ℕ) := by
    have := Nat.div_add_mod m (2 ^ (c + 1))
    rw [pow_succ' 2 c] at this ⊢
    exact_mod_cast this.symm
  have hr : m % 2 ^ (c + 1) < 2 * 2 ^ c := by rw [← pow_succ']; exact Nat.mod_lt _ (by positivity)
  have hp : (0 : ℝ) < (2 ^ c : ℕ) := by positivity
  have hle := hy.le
  have hlt := hy.lt
  unfold roundShift
  rw [Nat.add_sub_cancel]
  generalize m / 2 ^ (c + 1) = t at *
  generalize m % 2 ^ (c + 1) = r at *
  generalize 2 ^ c = p at *
  rw [zpow_zero, mul_one, hm] at hle hlt
  have hr' : (r : ℝ) + 1 ≤ 2 * p := by exact_mod_cast hr
  rcases lt_trichotomy r p with hrp | rfl | hrp
  · rw [if_neg (by omega)]
    have hrp' : (r : ℝ) + 1 ≤ p := by exact_mod_cast hrp
    exact nearestInt_of_lt_half (by nlinarith [r.cast_nonneg (α := ℝ)]) (by nlinarith)
  · cases st
    · simp only [lt_irrefl, false_or, true_and, Bool.false_eq_true]
      have heq : x * (2 * r) = 2 * r * t + r := by
        have : x * (2 * r) = (m : ℝ) * 2 ^ (0 : ℤ) := hy
        rw [this, hm]; ring
      exact nearestInt_of_eq_half (mul_right_cancel₀ (b := 2 * (r : ℝ)) (by positivity) (by linarith))
    · have hgt : 2 * r * t + r < x * (2 * r) := by
        have : (m : ℝ) * 2 ^ (0 : ℤ) < x * (2 * r) := (show _ ∧ _ from hy).1
        rw [hm] at this; linarith
      rw [if_pos (by simp)]
      exact nearestInt_of_half_lt (by nlinarith) (by nlinarith)
  · rw [if_pos (.inl hrp)]
    have hrp' : (p : ℝ) < r := by exact_mod_cast hrp
    exact nearestInt_of_half_lt (by nlinarith) (by nlinarith)

/-! ## Rounding to a magnitude of the format -/

/-- `k` is a magnitude nearest to `ρ`, the even one at a tie, among all magnitudes of both signs and without an upper end.
`ρ` counts units of `2^minExp`. -/
def NearestMag (f : Fmt) (ρ : ℝ) (k : ℕ) : Prop :=
  ∀ (n : Bool) (j : ℕ), |(magInt f k : ℝ) - ρ| ≤ |((signed n (magInt f j) : ℤ) : ℝ) - ρ| ∧
    (|(magInt f k : ℝ) - ρ| = |((signed n (magInt f j) : ℤ) : ℝ) - ρ| → signed n (magInt f j) ≠ magInt f k → k % 2 = 0)

theorem signed_mul (n : Bool) (a b : ℕ) : signed n (a * b) = signed n a * b := by
  cases n <;> simp [signed]

theorem signed_le (n : Bool) (a : ℕ) : signed n a ≤ a := by
  cases n <;> simp [signed]

/-- Rounding to an integer number of units of a binade is rounding to the format, when the binade holds the result: the
values between are multiples of the unit, and the finer ones below the binade lie farther off. -/
theorem nearestMag_of_nearestInt {f : Fmt} {ρ : ℝ} {s k : ℕ} (hk : NearestInt (ρ / 2 ^ s) k) (hb : InBinade f s k)
    (hs : s = 0 ∨ (2 ^ fracBits f : ℕ) ≤ ρ / 2 ^ s) : NearestMag f ρ (k + s * 2 ^ fracBits f) := by
  intro n j
  have hu : (0 : ℝ) < 2 ^ s := by positivity
  have hscale : ∀ z : ℝ, |z * 2 ^ s - ρ| = |z - ρ / 2 ^ s| * 2 ^ s := fun z => by
    rw [← abs_of_pos hu, ← abs_mul, sub_mul, abs_of_pos hu, div_mul_cancel₀ _ hu.ne']
  have heven : 2 ∣ s * 2 ^ fracBits f := Dvd.dvd.mul_left (dvd_pow_self 2 (by cases f <;> decide)) s
  rw [magInt_binade hb, Nat.cast_mul, Nat.cast_pow, Nat.cast_ofNat, hscale]
  rcases magInt_multiple_or_below f s j with ⟨t, ht⟩ | ⟨hs0, hlow⟩
  · obtain ⟨hle, htie⟩ := hk.le_abs_sub (signed n t)
    rw [ht, mul_comm (2 ^ s) t, signed_mul, Int.cast_mul, Int.cast_natCast, Nat.cast_pow, Nat.cast_ofNat, hscale]
    refine ⟨mul_le_mul_of_nonneg_right hle hu.le, fun heq hne => ?_⟩
    have := htie (mul_right_cancel₀ hu.ne' heq) (fun h => hne (by rw [h]; push_cast; rfl))
    omega
  · have hρ : ((2 ^ fracBits f : ℕ) : ℝ) ≤ ρ / 2 ^ s := hs.resolve_left hs0.ne'
    obtain ⟨hle, -⟩ := hk.le_abs_sub (2 ^ fracBits f : ℕ)
    have hz : ((signed n (magInt f j) : ℤ) : ℝ) < (2 ^ fracBits f : ℕ) * 2 ^ s := by
      have h1 := signed_le n (magInt f j)
      have h2 : (signed n (magInt f j) : ℤ) < (2 ^ fracBits f * 2 ^ s : ℕ) := by omega
      exact_mod_cast h2
    have hlt : |(k : ℝ) - ρ / 2 ^ s| * 2 ^ s < |((signed n (magInt f j) : ℤ) : ℝ) - ρ| := by
      calc |(k : ℝ) - ρ / 2 ^ s| * 2 ^ s ≤ |((2 ^ fracBits f : ℕ) : ℝ) - ρ / 2 ^ s| * 2 ^ s :=
            mul_le_mul_of_nonneg_right (by exact_mod_cast hle) hu.le
        _ = ρ - (2 ^ fracBits f : ℕ) * 2 ^ s := by
            rw [abs_of_nonpos (by linarith), neg_sub, sub_mul, div_mul_cancel₀ _ hu.ne']
        _ < ρ - ((signed n (magInt f j) : ℤ) : ℝ) := by linarith
        _ ≤ |((signed n (magInt f j) : ℤ) : ℝ) - ρ| := by rw [abs_sub_comm]; exact le_abs_self _
    exact ⟨hlt.le, fun heq => absurd heq hlt.ne⟩

/-- The exponent of the last place `roundMag` keeps. -/
def lastPlace (f : Fmt) (m : ℕ) (e : ℤ) : ℤ := max (e + ((m.log2 + 1 : ℕ) : ℤ) - (prec f : ℤ)) (minExp f)

theorem le_lastPlace (f : Fmt) (m : ℕ) (e : ℤ) : e + m.log2 ≤ lastPlace f m e + fracBits f := by
  have := le_max_left (e + ((m.log2 + 1 : ℕ) : ℤ) - (prec f : ℤ)) (minExp f)
  unfold lastPlace
  unfold prec at *
  omega

/-- The number of last places `roundMag` keeps. -/
def keptUnits (f : Fmt) (m : ℕ) (e : ℤ) (st : Bool) : ℕ :=
  if lastPlace f m e ≤ e then m * 2 ^ (e - lastPlace f m e).toNat else roundShift m (lastPlace f m e - e).toNat st

theorem roundMag_eq (f : Fmt) {m : ℕ} (e : ℤ) (st : Bool) (hm : m ≠ 0) :
    roundMag f m e st =
      min (keptUnits f m e st + (lastPlace f m e - minExp f).toNat * 2 ^ fracBits f) (infMag f) := by
  rw [roundMag, if_neg hm]
  rfl

theorem roundMag_zero (f : Fmt) (e : ℤ) (st : Bool) : roundMag f 0 e st = 0 := by simp [roundMag]

theorem nearestInt_keptUnits {f : Fmt} {m : ℕ} {e : ℤ} {st : Bool} {r : ℝ} (h : Truncates m e st r)
    (hst : st = true → 2 ^ (prec f + 1) ≤ m) : NearestInt (r / 2 ^ lastPlace f m e) (keptUnits f m e st) := by
  unfold keptUnits
  have hx := h.scale (-lastPlace f m e)
  rw [zpow_neg, ← div_eq_mul_inv] at hx
  split
  next hq =>
    have hst : st = false := by
      cases st
      · rfl
      · have hm : m ≠ 0 := (lt_of_lt_of_le (by positivity) (hst rfl)).ne'
        have hlog := (Nat.le_log2 hm).2 (hst rfl)
        have hplace := le_lastPlace f m e
        unfold prec at hlog
        omega
    subst hst
    have heq : r / 2 ^ lastPlace f m e = ((m * 2 ^ (e - lastPlace f m e).toNat : ℕ) : ℝ) := by
      rw [show r / 2 ^ lastPlace f m e = _ from hx, ← sub_eq_add_neg, Nat.cast_mul, Nat.cast_pow, Nat.cast_ofNat,
        ← zpow_natCast, Int.toNat_of_nonneg (by omega)]
    rw [heq]
    exact nearestInt_natCast _
  next hq =>
    refine nearestInt_roundShift (by omega) ?_
    rwa [show -((lastPlace f m e - e).toNat : ℤ) = e + -lastPlace f m e by omega]

theorem lt_binade_of_truncates {f : Fmt} {m : ℕ} {e : ℤ} {st : Bool} {r : ℝ} (h : Truncates m e st r) :
    r / 2 ^ lastPlace f m e < (2 * 2 ^ fracBits f : ℕ) := by
  rw [div_lt_iff₀ (by positivity)]
  have hm : (m : ℝ) + 1 ≤ 2 ^ (m.log2 + 1) := by exact_mod_cast Nat.lt_log2_self
  calc r < ((m : ℝ) + 1) * 2 ^ e := h.lt
    _ ≤ 2 ^ (m.log2 + 1) * 2 ^ e := mul_le_mul_of_nonneg_right hm (by positivity)
    _ = (2 : ℝ) ^ ((m.log2 + 1 : ℕ) + e) := by rw [zpow_add₀ (by norm_num), zpow_natCast]
    _ ≤ (2 : ℝ) ^ ((fracBits f + 1 : ℕ) + lastPlace f m e) := by
        refine zpow_le_zpow_right₀ (by norm_num) ?_
        have := le_lastPlace f m e
        omega
    _ = (2 * 2 ^ fracBits f : ℕ) * 2 ^ lastPlace f m e := by
        rw [zpow_add₀ (by norm_num), zpow_natCast, pow_succ']; push_cast; rfl

theorem binade_le_of_truncates {f : Fmt} {m : ℕ} {e : ℤ} {st : Bool} {r : ℝ} (h : Truncates m e st r) (hm : m ≠ 0)
    (hq : minExp f < lastPlace f m e) : (2 ^ fracBits f : ℕ) ≤ r / 2 ^ lastPlace f m e := by
  rw [le_div_iff₀ (by positivity)]
  have hlog : (2 : ℝ) ^ m.log2 ≤ m := by exact_mod_cast Nat.log2_self_le hm
  calc ((2 ^ fracBits f : ℕ) : ℝ) * 2 ^ lastPlace f m e = 2 ^ ((fracBits f : ℤ) + lastPlace f m e) := by
        rw [zpow_add₀ (by norm_num), zpow_natCast]; push_cast; rfl
    _ = 2 ^ ((m.log2 : ℤ) + e) := by
        congr 1
        unfold lastPlace at *
        unfold prec at *
        omega
    _ = 2 ^ m.log2 * 2 ^ e := by rw [zpow_add₀ (by norm_num), zpow_natCast]
    _ ≤ m * 2 ^ e := mul_le_mul_of_nonneg_right hlog (by positivity)
    _ ≤ r := h.le

/-- `roundMag` rounds to the nearest magnitude, ties to even, and cuts what lies beyond `infMag` off to it (R9). -/
theorem roundMag_nearest {f : Fmt} {m : ℕ} {e : ℤ} {st : Bool} {r : ℝ} (h : Truncates m e st r)
    (hst : st = true → 2 ^ (prec f + 1) ≤ m) :
    ∃ k, roundMag f m e st = min k (infMag f) ∧ NearestMag f (r / 2 ^ minExp f) k := by
  by_cases hm : m = 0
  · subst hm
    have : st = false := by
      cases st
      · rfl
      · exact absurd (hst rfl) (by simp)
    subst this
    have hr : r = 0 := by rw [show r = _ from h]; simp
    refine ⟨0 + 0 * 2 ^ fracBits f, by simp [roundMag_zero],
      nearestMag_of_nearestInt (by simp [hr, NearestInt]) ⟨Nat.zero_le _, .inl rfl⟩ (.inl rfl)⟩
  obtain ⟨s, hs⟩ : ∃ s : ℕ, lastPlace f m e = minExp f + s :=
    Int.le.dest (le_max_right _ _) |>.imp fun _ h => h.symm
  have hscale : r / 2 ^ lastPlace f m e = r / 2 ^ minExp f / 2 ^ s := by
    rw [hs, zpow_add₀ (by norm_num), zpow_natCast, div_div]
  have hlow : s = 0 ∨ (2 ^ fracBits f : ℕ) ≤ r / 2 ^ lastPlace f m e := by
    rcases Nat.eq_zero_or_pos s with h0 | h0
    · exact .inl h0
    · exact .inr (binade_le_of_truncates h hm (by omega))
  have hnear := nearestInt_keptUnits h hst
  obtain ⟨hnlo, hnhi⟩ := abs_le.1 hnear.1
  have hb : InBinade f s (keptUnits f m e st) := by
    constructor
    · have := lt_binade_of_truncates (f := f) h
      have : (keptUnits f m e st : ℝ) < (2 * 2 ^ fracBits f + 1 : ℕ) := by push_cast at *; linarith
      exact Nat.lt_succ_iff.1 (by exact_mod_cast this)
    · refine hlow.imp_right fun hlow => ?_
      have : ((2 ^ fracBits f : ℕ) : ℝ) < (keptUnits f m e st + 1 : ℕ) := by push_cast at *; linarith
      exact Nat.lt_succ_iff.1 (by exact_mod_cast this)
  rw [hscale] at hnear hlow
  refine ⟨_, ?_, nearestMag_of_nearestInt hnear hb hlow⟩
  rw [roundMag_eq f e st hm, hs, show (minExp f + (s : ℤ) - minExp f).toNat = s by omega]

end Sys2Proof.Machine
end

section
/-! PROOFS. Rounding with sign and overflow (00_scope.md R9): the overflow bound, `roundPat` against `RoundsTo`, and the values that
rounding leaves as they are. -/

namespace Sys2Proof.Machine

/-! ## The overflow bound (R9) -/

theorem infMag_pred_odd (f : Fmt) : (infMag f - 1) % 2 = 1 := by cases f <;> decide

theorem infMag_pos (f : Fmt) : 0 < infMag f := by cases f <;> decide

/-- The binade of the largest finite magnitude. -/
def topBinade (f : Fmt) : ℕ := 2 ^ expBits f - 3

theorem infMag_eq_topBinade (f : Fmt) : infMag f = 2 * 2 ^ fracBits f + topBinade f * 2 ^ fracBits f := by
  cases f <;> decide

theorem magInt_infMag (f : Fmt) : magInt f (infMag f) = 2 * 2 ^ fracBits f * 2 ^ topBinade f := by
  rw [infMag_eq_topBinade, magInt_binade ⟨le_rfl, .inr (by omega)⟩]

theorem magInt_infMag_pred (f : Fmt) : magInt f (infMag f - 1) = (2 * 2 ^ fracBits f - 1) * 2 ^ topBinade f := by
  have hp : 1 ≤ 2 ^ fracBits f := Nat.one_le_two_pow
  rw [infMag_eq_topBinade, show 2 * 2 ^ fracBits f + topBinade f * 2 ^ fracBits f - 1 =
    (2 * 2 ^ fracBits f - 1) + topBinade f * 2 ^ fracBits f by omega, magInt_binade ⟨by omega, .inr (by omega)⟩]

theorem overflowBound_eq_zpow (f : Fmt) :
    overflowBound f = (2 * 2 * 2 ^ fracBits f - 1) * 2 ^ ((topBinade f : ℤ) - 1 + minExp f) := by
  cases f
  · rw [show ((topBinade .b32 : ℤ) - 1 + minExp .b32) = (103 : ℕ) by decide, zpow_natCast]
    norm_num [overflowBound, fracBits]
  · rw [show ((topBinade .b64 : ℤ) - 1 + minExp .b64) = (970 : ℕ) by decide, zpow_natCast, overflowBound]
    norm_num [fracBits]

/-- The bound is half way between the largest finite magnitude and the next one. -/
theorem overflowBound_eq (f : Fmt) :
    overflowBound f = ((magInt f (infMag f - 1) : ℚ) + magInt f (infMag f)) / 2 * 2 ^ minExp f := by
  have hp : 1 ≤ 2 * 2 ^ fracBits f := Nat.one_le_iff_ne_zero.2 (by positivity)
  rw [overflowBound_eq_zpow, magInt_infMag, magInt_infMag_pred, zpow_add₀ (by norm_num), zpow_sub₀ (by norm_num),
    zpow_natCast]
  push_cast [hp]
  ring

/-- The overflow bound in units of `2^minExp`. -/
theorem overflowBound_scaled (f : Fmt) :
    (overflowBound f : ℝ) / 2 ^ minExp f = ((magInt f (infMag f - 1) : ℝ) + magInt f (infMag f)) / 2 := by
  rw [overflowBound_eq]
  push_cast
  exact mul_div_cancel_right₀ _ (by positivity)

theorem overflowBound_pos (f : Fmt) : (0 : ℝ) < overflowBound f := by
  cases f <;> norm_num [overflowBound]

/-- Rounding without an upper end passes the largest finite magnitude exactly from the overflow bound on: at the bound the
tie goes to the even neighbour, which is `infMag`. -/
theorem NearestMag.lt_infMag_iff {f : Fmt} {ρ : ℝ} {k : ℕ} (h : NearestMag f ρ k) :
    k < infMag f ↔ ρ < (overflowBound f : ℝ) / 2 ^ minExp f := by
  rw [overflowBound_scaled]
  have hpos := infMag_pos f
  have hstep : (magInt f (infMag f - 1) : ℝ) < magInt f (infMag f) := by
    exact_mod_cast magInt_strictMono f (Nat.sub_lt hpos one_pos)
  constructor
  · intro hk
    by_contra hge
    have hle : (magInt f k : ℝ) ≤ magInt f (infMag f - 1) := by
      exact_mod_cast (magInt_strictMono f).monotone (by omega)
    obtain ⟨hnear, htie⟩ := h false (infMag f)
    simp only [signed, Bool.false_eq_true, if_false, Int.cast_natCast] at hnear htie
    have habs : |(magInt f (infMag f) : ℝ) - ρ| ≤ ρ - magInt f (infMag f - 1) := abs_le.2 ⟨by linarith, by linarith⟩
    have hself : |(magInt f k : ℝ) - ρ| = ρ - magInt f k := by rw [abs_of_nonpos (by linarith)]; ring
    have hkeq : (magInt f k : ℝ) = magInt f (infMag f - 1) := by linarith
    have heven := htie (le_antisymm hnear (by rw [hself, hkeq]; exact habs)) (by
      have := magInt_strictMono f hk
      omega)
    have hodd := infMag_pred_odd f
    rw [← (magInt_strictMono f).injective (Nat.cast_injective hkeq)] at hodd
    omega
  · intro hlt
    by_contra hk
    have hle : (magInt f (infMag f) : ℝ) ≤ magInt f k := by
      exact_mod_cast (magInt_strictMono f).monotone (not_lt.1 hk)
    obtain ⟨hnear, -⟩ := h false (infMag f - 1)
    simp only [signed, Bool.false_eq_true, if_false, Int.cast_natCast] at hnear
    have hself : |(magInt f k : ℝ) - ρ| = magInt f k - ρ := abs_of_nonneg (by linarith)
    have habs : |(magInt f (infMag f - 1) : ℝ) - ρ| < magInt f (infMag f) - ρ := abs_lt.2 ⟨by linarith, by linarith⟩
    linarith

/-! ## `roundPat` rounds as `RoundsTo` says -/

/-- A real with a sign bit. -/
def withSign (n : Bool) (r : ℝ) : ℝ := if n then -r else r

@[simp] theorem withSign_false (r : ℝ) : withSign false r = r := rfl
@[simp] theorem withSign_true (r : ℝ) : withSign true r = -r := rfl

theorem cast_signed (n : Bool) (m : ℕ) : ((signed n m : ℤ) : ℝ) = withSign n m := by
  cases n <;> simp [signed]

theorem abs_withSign_sub (n p : Bool) (a b : ℝ) : |withSign p a - withSign n b| = |withSign (p != n) a - b| := by
  cases n
  · rw [Bool.bne_false, withSign_false]
  · rw [withSign_true, ← abs_neg]
    congr 1
    cases p <;> simp [withSign] <;> ring

theorem pack_toNat_mod_two (f : Fmt) (n : Bool) (k : ℕ) (h : k < signWeight f) : (pack f n k).toNat % 2 = k % 2 := by
  have : signWeight f % 2 = 0 := by cases f <;> decide
  rw [pack_toNat f n k h]
  split <;> omega

/-- The nearest magnitude below `infMag`, with a sign, is the nearest pattern. -/
theorem NearestMag.nearestTo {f : Fmt} {r : ℝ} {k : ℕ} (h : NearestMag f (r / 2 ^ minExp f) k) (hk : k < infMag f)
    (n : Bool) : NearestTo f (withSign n r) (pack f n k) := by
  have hu : (0 : ℝ) < 2 ^ minExp f := by positivity
  have hdist : ∀ (p : Bool) (j : ℕ), |((((signed p j : ℤ) : ℚ) * 2 ^ minExp f : ℚ) : ℝ) - withSign n r| =
      |((signed (p != n) j : ℤ) : ℝ) - r / 2 ^ minExp f| * 2 ^ minExp f := fun p j => by
    have : ((((signed p j : ℤ) : ℚ) * 2 ^ minExp f : ℚ) : ℝ) = withSign p (j * 2 ^ minExp f) := by
      cases p <;> simp [signed]
    rw [this, abs_withSign_sub, cast_signed, ← abs_of_pos hu, ← abs_mul, sub_mul, abs_of_pos hu,
      div_mul_cancel₀ _ hu.ne']
    cases (p != n) <;> simp
  refine ⟨_, realOf_pack f n k hk, fun w z hz => ?_⟩
  obtain ⟨-, rfl⟩ := (realOf_eq_some_iff f w z).1 hz
  obtain ⟨hle, htie⟩ := h (signOf f w != n) (magOf f w)
  have hself : signed (n != n) (magInt f k) = magInt f k := by cases n <;> rfl
  rw [hdist, hdist, hself, Int.cast_natCast]
  refine ⟨mul_le_mul_of_nonneg_right hle hu.le, fun heq hne => ?_⟩
  rw [pack_toNat_mod_two f n k (hk.trans (infMag_lt f))]
  refine htie (mul_right_cancel₀ hu.ne' heq) fun hs => hne ?_
  have : signed n (magInt f k) = signed (signOf f w) (magInt f (magOf f w)) := by
    revert hs
    cases n <;> cases signOf f w <;> simp [signed] <;> omega
  rw [this]

/-- `roundPat` gives the rounded value of the magnitude it is told of, with the sign (R9). -/
theorem roundsTo_roundPat {f : Fmt} {m : ℕ} {e : ℤ} {st : Bool} {r : ℝ} (h : Truncates m e st r)
    (hst : st = true → 2 ^ (prec f + 1) ≤ m) (n : Bool) : RoundsTo f (withSign n r) (roundPat f n m e st) := by
  obtain ⟨k, hround, hnear⟩ := roundMag_nearest h hst
  have hr := h.nonneg
  have hB := overflowBound_pos f
  have hlt : k < infMag f ↔ r < overflowBound f := by
    rw [hnear.lt_infMag_iff, div_lt_div_iff_of_pos_right (by positivity)]
  have hover : (overflowBound f : ℝ) ≤ r → roundPat f n m e st = infPat f n := fun hge => by
    rw [roundPat, hround, min_eq_right (not_lt.1 (mt hlt.1 (not_lt.2 hge))), infPat]
  refine ⟨fits_roundPat f n m e st, fun habs => ?_, fun hge => ?_, fun hle => ?_⟩
  · have hk : k < infMag f := hlt.2 (by cases n <;> simpa [abs_of_nonneg hr] using habs)
    rw [roundPat, hround, min_eq_left hk.le]
    exact hnear.nearestTo hk n
  · cases n
    · exact hover hge
    · exact absurd hge (by simp only [withSign_true]; linarith)
  · cases n
    · exact absurd hle (by simp only [withSign_false]; linarith)
    · exact hover (by simpa using hle)

theorem roundsTo_pack_zero (f : Fmt) (n : Bool) : RoundsTo f 0 (pack f n 0) := by
  simpa [withSign, roundPat, roundMag_zero] using roundsTo_roundPat (f := f) (truncates_exact 0 0) (by simp) n

/-! ## Exact results -/

/-- Every integer of at most `prec` bits, shifted left, is a value of the format when it is not too large. -/
theorem exists_magInt_eq (f : Fmt) (d : ℕ) : ∀ m < 2 ^ prec f, ∃ k, magInt f k = m * 2 ^ d := by
  have hprec : 2 ^ prec f = 2 * 2 ^ fracBits f := by rw [prec, pow_succ, mul_comm]
  induction d with
  | zero => exact fun m hm => ⟨_, magInt_binade (s := 0) ⟨by omega, .inl rfl⟩⟩
  | succ d ih =>
    intro m hm
    by_cases hlow : m < 2 ^ fracBits f
    · obtain ⟨k, hk⟩ := ih (2 * m) (by omega)
      exact ⟨k, by rw [hk]; ring⟩
    · exact ⟨_, magInt_binade (s := d + 1) ⟨by omega, .inr (not_lt.1 hlow)⟩⟩

theorem NearestMag.eq_of_magInt {f : Fmt} {k j : ℕ} (h : NearestMag f (magInt f j) k) : k = j := by
  have h0 := (h false j).1
  simp only [signed, Bool.false_eq_true, if_false, Int.cast_natCast, sub_self, abs_zero] at h0
  have : (magInt f k : ℝ) = magInt f j := sub_eq_zero.1 (abs_nonpos_iff.1 h0)
  exact (magInt_strictMono f).injective (by exact_mod_cast this)

/-- What the format holds is not changed by rounding. -/
theorem realOf_roundPat_exact {f : Fmt} {m : ℕ} {e : ℤ} (n : Bool) (hm : m < 2 ^ prec f) (he : minExp f ≤ e)
    (hlt : (m : ℚ) * 2 ^ e < magInt f (infMag f) * 2 ^ minExp f) :
    realOf f (roundPat f n m e false) = some ((signed n m : ℚ) * 2 ^ e) := by
  obtain ⟨d, rfl⟩ := Int.le.dest he
  obtain ⟨j, hj⟩ := exists_magInt_eq f d m hm
  have hu : (0 : ℚ) < 2 ^ minExp f := by positivity
  have hval : (m : ℚ) * 2 ^ (minExp f + d) = magInt f j * 2 ^ minExp f := by
    rw [hj, zpow_add₀ (by norm_num), zpow_natCast]; push_cast; ring
  have hjlt : j < infMag f := by
    rw [hval] at hlt
    exact (magInt_strictMono f).lt_iff_lt.1 (by exact_mod_cast lt_of_mul_lt_mul_right hlt hu.le)
  obtain ⟨k, hround, hnear⟩ := roundMag_nearest (f := f) (truncates_exact m (minExp f + d)) (by simp)
  have hρ : (m : ℝ) * 2 ^ (minExp f + d) / 2 ^ minExp f = magInt f j := by
    rw [div_eq_iff (by positivity)]
    simpa using congrArg (Rat.cast : ℚ → ℝ) hval
  rw [hρ] at hnear
  rw [roundPat, hround, hnear.eq_of_magInt, min_eq_left hjlt.le, realOf_pack f n j hjlt]
  cases n
  · simp [signed, hval]
  · simp [signed, hval]

end Sys2Proof.Machine
end

section
/-! PROOFS. The rounding primitives (00_scope.md R9, R10): each brings its exact result to `roundPat`, the quotient and the root with
enough bits and a sticky bit. -/

namespace Sys2Proof.Machine

/-! ## Each primitive is its exact result rounded once (R9, R10) -/

/-- The real value of an unpacked finite operand. -/
theorem cast_finValue (n : Bool) (m : ℕ) (e : ℤ) :
    ((((signed n m : ℤ) : ℚ) * 2 ^ e : ℚ) : ℝ) = withSign n ((m : ℝ) * 2 ^ e) := by
  cases n <;> simp [signed]

theorem withSign_mul_withSign (n p : Bool) (a b : ℝ) : withSign n a * withSign p b = withSign (n != p) (a * b) := by
  cases n <;> cases p <;> simp

theorem withSign_div_withSign (n p : Bool) (a b : ℝ) : withSign n a / withSign p b = withSign (n != p) (a / b) := by
  cases n <;> cases p <;> simp [neg_div, div_neg]

theorem cast_eq_withSign_natAbs (t : ℤ) : (t : ℝ) = withSign (decide (t < 0)) t.natAbs := by
  rw [Nat.cast_natAbs]
  by_cases h : t < 0
  · rw [decide_eq_true h, withSign_true, abs_of_neg h]; simp
  · rw [decide_eq_false h, withSign_false, abs_of_nonneg (not_lt.1 h)]

/-- Bringing a finite value to a lower exponent. -/
theorem signed_shift (n : Bool) (m : ℕ) {e e' : ℤ} (h : e' ≤ e) :
    ((signed n (m * 2 ^ (e - e').toNat) : ℤ) : ℝ) * 2 ^ e' = withSign n ((m : ℝ) * 2 ^ e) := by
  have hpow : (2 : ℝ) ^ e = 2 ^ (e - e').toNat * 2 ^ e' := by
    rw [← zpow_natCast, ← zpow_add₀ (by norm_num), Int.toNat_of_nonneg (by omega), sub_add_cancel]
  rw [cast_signed, hpow]
  cases n <;> push_cast <;> simp only [withSign_false, withSign_true] <;> ring

theorem roundsTo_sumFin (f : Fmt) (na : Bool) (ma : ℕ) (ea : ℤ) (nb : Bool) (mb : ℕ) (eb : ℤ) :
    RoundsTo f (withSign na (ma * 2 ^ ea) + withSign nb (mb * 2 ^ eb)) (sumFin f na ma ea nb mb eb) := by
  rw [← signed_shift na ma (min_le_left ea eb), ← signed_shift nb mb (min_le_right ea eb), ← add_mul, ← Int.cast_add]
  simp only [sumFin]
  generalize signed na _ + signed nb _ = t
  split
  next h0 => simpa [h0] using roundsTo_pack_zero f (na && nb)
  next h0 =>
    have := roundsTo_roundPat (f := f) (truncates_exact t.natAbs (min ea eb)) (by simp) (decide (t < 0))
    rwa [show (t : ℝ) * 2 ^ min ea eb = withSign (decide (t < 0)) ((t.natAbs : ℝ) * 2 ^ min ea eb) by
      rw [cast_eq_withSign_natAbs t]; cases decide (t < 0) <;> simp]

theorem roundsTo_fadd {f : Fmt} {a b : Pat} {x y : ℚ} (ha : realOf f a = some x) (hb : realOf f b = some y) :
    RoundsTo f ((x + y : ℚ) : ℝ) (fadd f a b) := by
  obtain ⟨na, ma, ea, hua, rfl⟩ := unpack_of_realOf f a x ha
  obtain ⟨nb, mb, eb, hub, rfl⟩ := unpack_of_realOf f b y hb
  rw [Rat.cast_add, cast_finValue, cast_finValue, fadd, hua, hub]
  exact roundsTo_sumFin f na ma ea nb mb eb

theorem realOf_flipSign {f : Fmt} {b : Pat} {y : ℚ} (hb : realOf f b = some y) :
    realOf f (flipSign f b) = some (-y) := by
  obtain ⟨nb, mb, eb, hub, rfl⟩ := unpack_of_realOf f b y hb
  rw [realOf, unpack_flipSign, hub]
  cases nb <;> simp [signed]

theorem roundsTo_fsub {f : Fmt} {a b : Pat} {x y : ℚ} (ha : realOf f a = some x) (hb : realOf f b = some y) :
    RoundsTo f ((x - y : ℚ) : ℝ) (fsub f a b) := by
  rw [sub_eq_add_neg]
  exact roundsTo_fadd ha (realOf_flipSign hb)

theorem roundsTo_fmul {f : Fmt} {a b : Pat} {x y : ℚ} (ha : realOf f a = some x) (hb : realOf f b = some y) :
    RoundsTo f ((x * y : ℚ) : ℝ) (fmul f a b) := by
  obtain ⟨na, ma, ea, hua, rfl⟩ := unpack_of_realOf f a x ha
  obtain ⟨nb, mb, eb, hub, rfl⟩ := unpack_of_realOf f b y hb
  have htr : Truncates (ma * mb) (ea + eb) false ((ma : ℝ) * 2 ^ ea * (mb * 2 ^ eb)) := by
    rw [Truncates, zpow_add₀ (by norm_num)]
    push_cast
    ring
  rw [Rat.cast_mul, cast_finValue, cast_finValue, withSign_mul_withSign, fmul, hua, hub]
  exact roundsTo_roundPat htr (by simp) (na != nb)

theorem roundsTo_ffma {f : Fmt} {a b c : Pat} {x y z : ℚ} (ha : realOf f a = some x) (hb : realOf f b = some y)
    (hc : realOf f c = some z) : RoundsTo f ((x * y + z : ℚ) : ℝ) (ffma f a b c) := by
  obtain ⟨na, ma, ea, hua, rfl⟩ := unpack_of_realOf f a x ha
  obtain ⟨nb, mb, eb, hub, rfl⟩ := unpack_of_realOf f b y hb
  obtain ⟨nc, mc, ec, huc, rfl⟩ := unpack_of_realOf f c z hc
  have hprod : (ma : ℝ) * 2 ^ ea * (mb * 2 ^ eb) = (ma * mb : ℕ) * 2 ^ (ea + eb) := by
    rw [zpow_add₀ (by norm_num)]
    push_cast
    ring
  rw [Rat.cast_add, Rat.cast_mul, cast_finValue, cast_finValue, cast_finValue, withSign_mul_withSign, hprod, ffma, hua,
    hub, huc]
  exact roundsTo_sumFin f (na != nb) (ma * mb) (ea + eb) nc mc ec

/-! ### The quotient: `prec + 2` bits of it at least, and whether a remainder is left -/

theorem truncates_div (ma mb s : ℕ) (ea eb : ℤ) (hb : mb ≠ 0) :
    Truncates (ma * 2 ^ s / mb) (ea - eb - s) (decide (ma * 2 ^ s % mb ≠ 0)) (ma * 2 ^ ea / (mb * 2 ^ eb)) := by
  have hmb : (0 : ℝ) < mb := by exact_mod_cast Nat.pos_of_ne_zero hb
  have hvalue : (ma : ℝ) * 2 ^ ea / (mb * 2 ^ eb) = ((ma * 2 ^ s : ℕ) : ℝ) / mb * 2 ^ (ea - eb - s) := by
    rw [zpow_sub₀ (by norm_num), zpow_sub₀ (by norm_num), zpow_natCast]
    push_cast
    field_simp
  rw [hvalue]
  generalize ma * 2 ^ s = n
  have hu : (0 : ℝ) < 2 ^ (ea - eb - s) := by positivity
  have hdiv : (n : ℝ) = mb * (n / mb : ℕ) + (n % mb : ℕ) := by exact_mod_cast (Nat.div_add_mod n mb).symm
  have hmod : ((n % mb : ℕ) : ℝ) < mb := by exact_mod_cast Nat.mod_lt n (Nat.pos_of_ne_zero hb)
  by_cases h0 : n % mb = 0
  · rw [h0, Nat.cast_zero, add_zero] at hdiv
    simp only [h0, Truncates, ne_eq, not_true_eq_false, decide_false, Bool.false_eq_true, if_false]
    rw [hdiv, mul_div_cancel_left₀ _ hmb.ne']
  · have hpos : (0 : ℝ) < (n % mb : ℕ) := by exact_mod_cast Nat.pos_of_ne_zero h0
    simp only [h0, Truncates, ne_eq, not_false_eq_true, decide_true, if_true]
    refine ⟨mul_lt_mul_of_pos_right ?_ hu, mul_lt_mul_of_pos_right ?_ hu⟩
    · rw [lt_div_iff₀ hmb]; linarith
    · rw [div_lt_iff₀ hmb]; linarith

/-- Scaling by `2^s` with `s ≥ k + log2 mb + 1` leaves more than `k` bits in a quotient that is not zero. -/
theorem two_pow_le_div {ma mb s k : ℕ} (ha : ma ≠ 0) (hb : mb ≠ 0) (hs : k + mb.log2 + 1 ≤ s) :
    2 ^ k ≤ ma * 2 ^ s / mb := by
  rw [Nat.le_div_iff_mul_le (Nat.pos_of_ne_zero hb)]
  calc 2 ^ k * mb ≤ 2 ^ k * 2 ^ (mb.log2 + 1) := Nat.mul_le_mul_left _ Nat.lt_log2_self.le
    _ = 2 ^ (k + mb.log2 + 1) := by rw [← pow_add, ← add_assoc]
    _ ≤ 2 ^ s := Nat.pow_le_pow_right (by norm_num) hs
    _ ≤ ma * 2 ^ s := Nat.le_mul_of_pos_left _ (Nat.pos_of_ne_zero ha)

theorem roundsTo_divFin (f : Fmt) (n : Bool) (ma : ℕ) (ea : ℤ) {mb : ℕ} (eb : ℤ) (hb : mb ≠ 0) :
    RoundsTo f (withSign n (ma * 2 ^ ea / (mb * 2 ^ eb))) (divFin f n ma ea mb eb) := by
  refine roundsTo_roundPat (truncates_div ma mb (prec f + mb.log2 + 4) ea eb hb) (fun hrem => ?_) n
  have ha : ma ≠ 0 := by
    rintro rfl
    simp at hrem
  exact two_pow_le_div ha hb (by omega)

theorem roundsTo_fdiv {f : Fmt} {a b : Pat} {x y : ℚ} (ha : realOf f a = some x) (hb : realOf f b = some y)
    (hy : y ≠ 0) : RoundsTo f ((x / y : ℚ) : ℝ) (fdiv f a b) := by
  obtain ⟨na, ma, ea, hua, rfl⟩ := unpack_of_realOf f a x ha
  obtain ⟨nb, mb, eb, hub, rfl⟩ := unpack_of_realOf f b y hb
  have hmb : mb ≠ 0 := by
    rintro rfl
    cases nb <;> simp [signed] at hy
  rw [Rat.cast_div, cast_finValue, cast_finValue, withSign_div_withSign, fdiv, hua, hub]
  simp only [if_neg hmb]
  exact roundsTo_divFin f (na != nb) ma ea eb hmb

/-! ### The square root: the integer root of an even power, and whether it is exact -/

theorem isqrt_eq_sqrt (k : ℕ) : ∀ n < 4 ^ k, isqrt k n = Nat.sqrt n := by
  induction k with
  | zero =>
    intro n hn
    obtain rfl : n = 0 := by simpa using hn
    rfl
  | succ k ih =>
    intro n hn
    have hsq : isqrt k (n / 4) = Nat.sqrt (n / 4) := ih _ (by rw [pow_succ] at hn; omega)
    have h1 := Nat.sqrt_le (n / 4)
    have h2 := Nat.lt_succ_sqrt (n / 4)
    rw [isqrt, hsq, Nat.eq_sqrt]
    generalize Nat.sqrt (n / 4) = r at *
    have hlow : 2 * r * (2 * r) ≤ n := by
      have : 2 * r * (2 * r) = 4 * (r * r) := by ring
      omega
    have hhigh : n < (2 * r + 1 + 1) * (2 * r + 1 + 1) := by
      have : (2 * r + 1 + 1) * (2 * r + 1 + 1) = 4 * ((r + 1) * (r + 1)) := by ring
      rw [Nat.succ_eq_add_one] at h2
      omega
    split
    next h => exact ⟨h, hhigh⟩
    next h => exact ⟨hlow, not_le.1 h⟩

theorem truncates_sqrt {m : ℕ} {e : ℤ} {s : ℕ} (hs : 2 ∣ e - s) :
    Truncates (Nat.sqrt (m * 2 ^ s)) ((e - s) / 2) (decide (Nat.sqrt (m * 2 ^ s) * Nat.sqrt (m * 2 ^ s) ≠ m * 2 ^ s))
      (Real.sqrt (m * 2 ^ e)) := by
  obtain ⟨c, hc⟩ := hs
  have hvalue : (m : ℝ) * 2 ^ e = ((m * 2 ^ s : ℕ) : ℝ) * (2 ^ c) ^ 2 := by
    rw [show e = s + c + c by omega, zpow_add₀ (by norm_num), zpow_add₀ (by norm_num), zpow_natCast]
    push_cast
    ring
  have hu : (0 : ℝ) < 2 ^ c := by positivity
  rw [hvalue, Real.sqrt_mul (Nat.cast_nonneg _), Real.sqrt_sq hu.le, hc, Int.mul_ediv_cancel_left _ (by norm_num)]
  generalize m * 2 ^ s = n
  by_cases h0 : Nat.sqrt n * Nat.sqrt n = n
  · simp only [h0, Truncates, ne_eq, not_true_eq_false, decide_false, Bool.false_eq_true, if_false]
    congr 1
    rw [Real.sqrt_eq_iff_mul_self_eq (Nat.cast_nonneg _) (Nat.cast_nonneg _)]
    exact_mod_cast h0.symm
  · simp only [h0, Truncates, ne_eq, not_false_eq_true, decide_true, if_true]
    refine ⟨mul_lt_mul_of_pos_right ?_ hu, mul_lt_mul_of_pos_right ?_ hu⟩
    · refine Real.lt_sqrt_of_sq_lt ?_
      exact_mod_cast (sq (Nat.sqrt n)).trans_lt (lt_of_le_of_ne (Nat.sqrt_le n) h0)
    · rw [Real.sqrt_lt' (by positivity)]
      have := Nat.lt_succ_sqrt' n
      exact_mod_cast this

theorem roundsTo_sqrtFin (f : Fmt) {m : ℕ} (e : ℤ) (hm : m ≠ 0) :
    RoundsTo f (Real.sqrt (m * 2 ^ e)) (sqrtFin f m e) := by
  have hroot : ∀ n : ℕ, isqrt (n.log2 / 2 + 1) n = Nat.sqrt n := fun n => by
    refine isqrt_eq_sqrt _ n (Nat.lt_log2_self.trans_le ?_)
    rw [show 4 = 2 ^ 2 by norm_num, ← pow_mul]
    exact Nat.pow_le_pow_right (by norm_num) (by omega)
  unfold sqrtFin
  simp only [hroot]
  refine roundsTo_roundPat (n := false) (truncates_sqrt (by push_cast; omega)) fun _ => ?_
  rw [Nat.le_sqrt, ← pow_add]
  refine le_trans (Nat.pow_le_pow_right (by norm_num) ?_) (Nat.le_mul_of_pos_left _ (Nat.pos_of_ne_zero hm))
  omega

theorem roundsTo_fsqrt {f : Fmt} {a : Pat} {x : ℚ} (ha : realOf f a = some x) (hx : 0 ≤ x) :
    RoundsTo f (Real.sqrt (x : ℝ)) (fsqrt f a) := by
  obtain ⟨n, m, e, hua, rfl⟩ := unpack_of_realOf f a x ha
  rw [cast_finValue, fsqrt, hua]
  dsimp only
  by_cases hm : m = 0
  · subst hm
    simpa [withSign] using roundsTo_pack_zero f n
  · have hn : n = false := by
      cases n
      · rfl
      · have : (0 : ℚ) < m * 2 ^ e := by positivity
        simp [signed] at hx
        linarith
    subst hn
    simpa [hm] using roundsTo_sqrtFin f e hm

/-- Settles O43: each primitive's lemma above, by the Truncates form that `roundPat` is told. -/
theorem arithmeticRoundsToNearestEven : Obligations.ArithmeticRoundsToNearestEven := by
  intro f a b c x y z ha hb hc
  exact ⟨roundsTo_fadd ha hb, roundsTo_fsub ha hb, roundsTo_fmul ha hb, roundsTo_fdiv ha hb, roundsTo_fsqrt ha,
    roundsTo_ffma ha hb hc⟩

end Sys2Proof.Machine
end

section
/-! PROOFS. Comparisons and remainder (00_scope.md R13, R14). -/

namespace Sys2Proof.Machine

/-! ## Comparisons (R13) -/

/-- The value an order key stands for, the infinities outermost. -/
def keyValue (f : Fmt) (k : ℤ) : WithBot (WithTop ℚ) :=
  if (infMag f : ℤ) ≤ k then ((⊤ : WithTop ℚ) : WithBot (WithTop ℚ))
  else if k ≤ -(infMag f : ℤ) then ⊥
  else (((signed (decide (k < 0)) (magInt f k.natAbs) : ℚ) * 2 ^ minExp f : ℚ) : WithTop ℚ)

theorem signed_magInt_strictMono (f : Fmt) :
    StrictMono fun k : ℤ => signed (decide (k < 0)) (magInt f k.natAbs) := by
  intro j k hjk
  have hmono := magInt_strictMono f
  have hzero := magInt_zero f
  by_cases hj : j < 0 <;> by_cases hk : k < 0 <;> simp only [hj, hk, decide_true, decide_false, signed, if_true,
    Bool.false_eq_true, if_false]
  · have := hmono (show k.natAbs < j.natAbs by omega)
    omega
  · have := hmono (show 0 < j.natAbs by omega)
    omega
  · omega
  · have := hmono (show j.natAbs < k.natAbs by omega)
    omega

theorem keyValue_strictMonoOn (f : Fmt) : StrictMonoOn (keyValue f) (Set.Icc (-(infMag f : ℤ)) (infMag f)) := by
  rintro j ⟨hj, hj'⟩ k ⟨hk, hk'⟩ hjk
  have hpos := infMag_pos f
  have hu : (0 : ℚ) < 2 ^ minExp f := by positivity
  unfold keyValue
  rw [if_neg (not_le.2 (hjk.trans_le hk'))]
  by_cases hbot : j ≤ -(infMag f : ℤ)
  · rw [if_pos hbot, if_neg (c := k ≤ _) (by omega)]
    split <;> exact WithBot.bot_lt_coe _
  · rw [if_neg hbot, if_neg (c := k ≤ _) (by omega)]
    split
    · exact WithBot.coe_lt_coe.2 (WithTop.coe_lt_top _)
    · refine WithBot.coe_lt_coe.2 (WithTop.coe_lt_coe.2 (mul_lt_mul_of_pos_right ?_ hu))
      exact_mod_cast signed_magInt_strictMono f hjk

theorem orderKey_mem_Icc {f : Fmt} {a : Pat} (h : isNan f a = false) :
    orderKey f a ∈ Set.Icc (-(infMag f : ℤ)) (infMag f) := by
  have hle : magOf f a ≤ infMag f := not_lt.1 (of_decide_eq_false h)
  rw [orderKey, signed]
  split <;> constructor <;> omega

/-- The value of a pattern is the value of its order key. -/
theorem orderOf_eq_keyValue {f : Fmt} {a : Pat} (h : isNan f a = false) :
    orderOf f a = some (keyValue f (orderKey f a)) := by
  have hpos := infMag_pos f
  rcases (not_lt.1 (of_decide_eq_false h) : magOf f a ≤ infMag f).lt_or_eq with hlt | heq
  · obtain ⟨m, e, hu, -, -, hval⟩ := unpack_of_magOf_lt f a hlt
    have hsame : (signed (signOf f a) m : ℚ) * 2 ^ e =
        (signed (signOf f a) (magInt f (magOf f a)) : ℚ) * 2 ^ minExp f := by
      cases signOf f a <;> simp [signed, hval]
    have hkey : signed (decide (orderKey f a < 0)) (magInt f (orderKey f a).natAbs) =
        signed (signOf f a) (magInt f (magOf f a)) := by
      rw [orderKey]
      cases signOf f a
      · simp [signed]
      · by_cases h0 : magOf f a = 0
        · simp [signed, h0, magInt_zero]
        · simp [signed, Nat.pos_of_ne_zero h0]
    rw [orderOf, hu, keyValue, if_neg, if_neg, hkey, ← hsame]
    · rw [orderKey, signed]; split <;> omega
    · rw [orderKey, signed]; split <;> omega
  · rw [orderOf, unpack_of_magOf_eq f a heq, orderKey, heq]
    cases signOf f a
    · simp [keyValue, signed]
    · simp [keyValue, signed, hpos.ne']

theorem orderOf_of_isNan {f : Fmt} {a : Pat} (h : isNan f a = true) : orderOf f a = none := by
  rw [orderOf, unpack_of_isNan f a h]

theorem orderOf_eq_some_iff {f : Fmt} {a : Pat} {p : WithBot (WithTop ℚ)} :
    orderOf f a = some p ↔ isNan f a = false ∧ keyValue f (orderKey f a) = p := by
  cases h : isNan f a
  · simp [orderOf_eq_keyValue h]
  · simp [orderOf_of_isNan h]

theorem flt_eq_true_iff (f : Fmt) (a b : Pat) :
    flt f a b = true ↔ isNan f a = false ∧ isNan f b = false ∧ orderKey f a < orderKey f b := by
  simp [flt, and_assoc]

theorem fle_eq_true_iff (f : Fmt) (a b : Pat) :
    fle f a b = true ↔ isNan f a = false ∧ isNan f b = false ∧ orderKey f a ≤ orderKey f b := by
  simp [fle, and_assoc]

theorem flt_iff_orderOf (f : Fmt) (a b : Pat) :
    flt f a b = true ↔ ∃ p q, orderOf f a = some p ∧ orderOf f b = some q ∧ p < q := by
  simp only [flt_eq_true_iff, orderOf_eq_some_iff]
  constructor
  · rintro ⟨ha, hb, hlt⟩
    exact ⟨_, _, ⟨ha, rfl⟩, ⟨hb, rfl⟩,
      ((keyValue_strictMonoOn f).lt_iff_lt (orderKey_mem_Icc ha) (orderKey_mem_Icc hb)).2 hlt⟩
  · rintro ⟨_, _, ⟨ha, rfl⟩, ⟨hb, rfl⟩, hlt⟩
    exact ⟨ha, hb, ((keyValue_strictMonoOn f).lt_iff_lt (orderKey_mem_Icc ha) (orderKey_mem_Icc hb)).1 hlt⟩

theorem fle_iff_orderOf (f : Fmt) (a b : Pat) :
    fle f a b = true ↔ ∃ p q, orderOf f a = some p ∧ orderOf f b = some q ∧ p ≤ q := by
  simp only [fle_eq_true_iff, orderOf_eq_some_iff]
  constructor
  · rintro ⟨ha, hb, hle⟩
    exact ⟨_, _, ⟨ha, rfl⟩, ⟨hb, rfl⟩,
      ((keyValue_strictMonoOn f).le_iff_le (orderKey_mem_Icc ha) (orderKey_mem_Icc hb)).2 hle⟩
  · rintro ⟨_, _, ⟨ha, rfl⟩, ⟨hb, rfl⟩, hle⟩
    exact ⟨ha, hb, ((keyValue_strictMonoOn f).le_iff_le (orderKey_mem_Icc ha) (orderKey_mem_Icc hb)).1 hle⟩

/-- Settles O41: the order key is a strictly monotone image of the value, and a NaN has none. -/
theorem comparisonsFollowTheValues : Obligations.ComparisonsFollowTheValues := by
  intro f a b
  refine ⟨flt_iff_orderOf f a b, fle_iff_orderOf f a b, rfl, fun h => ?_⟩
  rcases h with h | h <;> simp [fge, flt, fle, h]

/-! ## The remainder (R14) -/

theorem truncate_natCast_div (A B : ℕ) : truncate ((A : ℚ) / B) = (A / B : ℕ) := by
  rw [truncate, if_pos (by positivity)]
  have := Rat.floor_intCast_div_natCast A B
  rwa [Int.cast_natCast] at this

theorem truncate_neg (q : ℚ) : truncate (-q) = -truncate q := by
  unfold truncate
  rcases lt_trichotomy q 0 with h | rfl | h
  · rw [if_pos (by linarith), if_neg (by linarith), Int.floor_neg]
  · simp
  · rw [if_neg (by linarith), if_pos h.le, Int.ceil_neg]

theorem truncate_signed_div (n p : Bool) (A B : ℕ) :
    truncate ((signed n A : ℚ) / (signed p B : ℚ)) = signed (n != p) (A / B) := by
  have h := truncate_natCast_div A B
  cases n <;> cases p <;> simp [signed, neg_div, div_neg, truncate_neg, h]

theorem signed_bne_mul (n p : Bool) (a b : ℕ) : signed (n != p) a * signed p b = signed n (a * b) := by
  cases n <;> cases p <;> simp [signed]

/-- A remainder with the sign of its dividend. -/
theorem signed_mod (n p : Bool) (A B : ℕ) :
    signed n A - signed (n != p) (A / B) * signed p B = signed n (A % B) := by
  have h := Nat.div_add_mod' A B
  rw [signed_bne_mul]
  cases n <;> simp only [signed, if_true, Bool.false_eq_true, if_false] <;> omega

/-- The finite operand in full: its significand fits `prec` bits, its exponent is no lower than the least, and its magnitude
lies below that of `infMag`. -/
theorem unpack_of_realOf_bounds {f : Fmt} {v : Pat} {x : ℚ} (h : realOf f v = some x) :
    ∃ m e, unpack f v = .fin (signOf f v) m e ∧ m < 2 ^ prec f ∧ minExp f ≤ e ∧
      x = (signed (signOf f v) m : ℚ) * 2 ^ e ∧ (m : ℚ) * 2 ^ e < magInt f (infMag f) * 2 ^ minExp f := by
  obtain ⟨hlt, -⟩ := (realOf_eq_some_iff f v x).1 h
  obtain ⟨m, e, hu, hm, he, hval⟩ := unpack_of_magOf_lt f v hlt
  refine ⟨m, e, hu, hm, he, ?_, ?_⟩
  · rw [realOf, hu] at h
    exact (Option.some.inj h).symm
  · rw [hval]
    exact mul_lt_mul_of_pos_right (by exact_mod_cast magInt_strictMono f hlt) (by positivity)

theorem signed_shift_rat (n : Bool) (m : ℕ) {e e' : ℤ} (h : e' ≤ e) :
    ((signed n (m * 2 ^ (e - e').toNat) : ℤ) : ℚ) * 2 ^ e' = (signed n m : ℚ) * 2 ^ e := by
  have hreal := signed_shift n m h
  rw [← cast_finValue] at hreal
  refine Rat.cast_injective (α := ℝ) (Eq.trans ?_ hreal)
  push_cast
  rfl

theorem signOf_roundPat (f : Fmt) (n : Bool) (m : ℕ) (e : ℤ) (st : Bool) : signOf f (roundPat f n m e st) = n :=
  signOf_pack f n _ ((roundMag_le f m e st).trans_lt (infMag_lt f))

/-- Both operands are brought to the lower exponent; the integer remainder there is below one of the two significands, so it
is a value of the format. -/
theorem ffmod_exact {f : Fmt} {a b : Pat} {x y : ℚ} (ha : realOf f a = some x) (hb : realOf f b = some y) (hy : y ≠ 0) :
    realOf f (ffmod f a b) = some (x - (truncate (x / y) : ℚ) * y) ∧ signOf f (ffmod f a b) = signOf f a := by
  obtain ⟨ma, ea, hua, hma, hea, rfl, hbound⟩ := unpack_of_realOf_bounds ha
  obtain ⟨mb, eb, hub, hmb, heb, rfl, -⟩ := unpack_of_realOf_bounds hb
  have hmb0 : mb ≠ 0 := by
    rintro rfl
    cases signOf f b <;> simp [signed] at hy
  rw [ffmod, hua, hub]
  simp only [if_neg hmb0]
  refine ⟨?_, signOf_roundPat f _ _ _ _⟩
  have hu : (2 : ℚ) ^ min ea eb ≠ 0 := by positivity
  have hA := signed_shift_rat (signOf f a) ma (min_le_left ea eb)
  have hB := signed_shift_rat (signOf f b) mb (min_le_right ea eb)
  have hA0 := signed_shift_rat false ma (min_le_left ea eb)
  have hsmall : ma * 2 ^ (ea - min ea eb).toNat % (mb * 2 ^ (eb - min ea eb).toNat) < 2 ^ prec f := by
    rcases le_total ea eb with hle | hle
    · rw [min_eq_left hle, sub_self, Int.toNat_zero, pow_zero, mul_one]
      exact (Nat.mod_le _ _).trans_lt hma
    · rw [min_eq_right hle, sub_self, Int.toNat_zero, pow_zero, mul_one]
      exact (Nat.mod_lt _ (Nat.pos_of_ne_zero hmb0)).trans hmb
  rw [← hA, ← hB, mul_div_mul_right _ _ hu, truncate_signed_div, ← mul_assoc, ← sub_mul]
  simp only [signed, Bool.false_eq_true, if_false, Int.cast_natCast] at hA0
  generalize ma * 2 ^ (ea - min ea eb).toNat = A at *
  generalize mb * 2 ^ (eb - min ea eb).toNat = B at *
  rw [realOf_roundPat_exact _ hsmall (le_min hea heb), ← signed_mod (signOf f a) (signOf f b) A B]
  · push_cast
    rfl
  · refine lt_of_le_of_lt ?_ hbound
    rw [← hA0]
    exact mul_le_mul_of_nonneg_right (by exact_mod_cast Nat.mod_le A B) (by positivity)

/-- A pattern of the format is its sign and its magnitude. -/
theorem pack_signOf_magOf {f : Fmt} {v : Pat} (h : fits f v = true) : pack f (signOf f v) (magOf f v) = v := by
  have hv : v.toNat < 2 ^ flen f := of_decide_eq_true h
  have hdouble := signWeight_double f
  have hdiv : v.toNat / signWeight f < 2 := Nat.div_lt_of_lt_mul (by omega)
  refine BitVec.eq_of_toNat_eq ?_
  rw [pack_toNat f _ _ (magOf_lt f v), magOf, signOf]
  have hsplit := Nat.div_add_mod v.toNat (signWeight f)
  interval_cases hq : v.toNat / signWeight f <;> simp_all

theorem unpack_of_isZero {f : Fmt} {b : Pat} (h : isZero f b = true) : ∃ n e, unpack f b = .fin n 0 e := by
  have h0 : magOf f b = 0 := of_decide_eq_true h
  have hfin : isFinite f b = true := decide_eq_true (h0 ▸ infMag_pos f)
  obtain ⟨m, e, hu, hm⟩ := unpack_of_isFinite f b hfin
  exact ⟨_, e, by rw [hu, hm.2 h]⟩

theorem ffmod_of_isNan_left {f : Fmt} {a : Pat} (b : Pat) (h : isNan f a = true) : ffmod f a b = cnan f := by
  rw [ffmod, unpack_of_isNan f a h]

theorem ffmod_of_isNan_right {f : Fmt} (a : Pat) {b : Pat} (h : isNan f b = true) : ffmod f a b = cnan f := by
  rw [ffmod, unpack_of_isNan f b h]
  cases unpack f a <;> rfl

theorem ffmod_of_inf_left {f : Fmt} {a : Pat} (b : Pat) (h : magOf f a = infMag f) : ffmod f a b = cnan f := by
  rw [ffmod, unpack_of_magOf_eq f a h]

theorem ffmod_of_isZero_right {f : Fmt} (a : Pat) {b : Pat} (h : isZero f b = true) : ffmod f a b = cnan f := by
  obtain ⟨n, e, hu⟩ := unpack_of_isZero h
  rw [ffmod, hu]
  cases unpack f a <;> rfl

theorem ffmod_of_inf_right {f : Fmt} {a b : Pat} (hfit : fits f a = true) (ha : isFinite f a = true)
    (hb : magOf f b = infMag f) : ffmod f a b = a := by
  obtain ⟨m, e, hu, -⟩ := unpack_of_isFinite f a ha
  rw [ffmod, hu, unpack_of_magOf_eq f b hb]
  exact pack_signOf_magOf hfit

/-- Settles O42: the special operands by their unpacked form, the rest by exactness of the integer remainder. -/
theorem remainderIsExact : Obligations.RemainderIsExact := by
  intro f a b hfa _
  refine ⟨?_, ffmod_of_inf_right hfa, fun x y => ffmod_exact⟩
  rintro (h | h | h | h)
  · exact ffmod_of_isNan_left b h
  · exact ffmod_of_isNan_right a h
  · exact ffmod_of_inf_left b h
  · exact ffmod_of_isZero_right a h

end Sys2Proof.Machine
end

section
/-! PROOFS. The sign bit and the conversions (00_scope.md R11, R12, R15). -/

namespace Sys2Proof.Machine

/-! ## The sign bit (R12) -/

theorem ofNat_signWeight_toNat (f : Fmt) : (BitVec.ofNat 64 (signWeight f)).toNat = signWeight f := by
  cases f <;> rfl

/-- Flipping the sign bit: on the quotient by its weight the exclusive-or is 0 with 1 or 1 with 1, on the rest with 0. -/
theorem pack_xor_signWeight {f : Fmt} (n : Bool) {m : ℕ} (h : m < signWeight f) :
    pack f n m ^^^ BitVec.ofNat 64 (signWeight f) = pack f (!n) m := by
  refine BitVec.eq_of_toNat_eq ?_
  rw [BitVec.toNat_xor, ofNat_signWeight_toNat, pack_toNat f n m h, pack_toNat f (!n) m h]
  unfold signWeight at *
  have hpos : 0 < 2 ^ (flen f - 1) := by positivity
  cases n
  all_goals
    rw [← Nat.div_add_mod (_ ^^^ _) (2 ^ (flen f - 1)), Nat.xor_div_two_pow, Nat.xor_mod_two_pow]
    simp [Nat.div_eq_of_lt h, Nat.mod_eq_of_lt h, Nat.div_self hpos, Nat.add_div_left m hpos]

theorem pack_and_signWeight_pred {f : Fmt} (n : Bool) {m : ℕ} (h : m < signWeight f) :
    pack f n m &&& BitVec.ofNat 64 (signWeight f - 1) = pack f false m := by
  refine BitVec.eq_of_toNat_eq ?_
  have hw : (BitVec.ofNat 64 (signWeight f - 1)).toNat = signWeight f - 1 := by cases f <;> rfl
  rw [BitVec.toNat_and, hw, pack_toNat f n m h, pack_toNat f false m h]
  unfold signWeight at *
  rw [Nat.and_two_pow_sub_one_eq_mod]
  cases n <;> simp [Nat.mod_eq_of_lt h]

theorem flipSign_eq_xor {f : Fmt} {a : Pat} (h : fits f a = true) :
    flipSign f a = a ^^^ BitVec.ofNat 64 (signWeight f) := by
  conv_rhs => rw [← pack_signOf_magOf h]
  exact (pack_xor_signWeight _ (magOf_lt f a)).symm

theorem clearSign_eq_and {f : Fmt} {a : Pat} (h : fits f a = true) :
    pack f false (magOf f a) = a &&& BitVec.ofNat 64 (signWeight f - 1) := by
  conv_rhs => rw [← pack_signOf_magOf h]
  exact (pack_and_signWeight_pred _ (magOf_lt f a)).symm

/-! ## Conversions (R15) -/

theorem narrow32_roundsTo {a : Pat} {x : ℚ} (h : realOf .b64 a = some x) :
    RoundsTo .b32 (x : ℝ) (narrow32 a) ∧ signOf .b32 (narrow32 a) = signOf .b64 a := by
  obtain ⟨m, e, hu, -, -, rfl, -⟩ := unpack_of_realOf_bounds h
  rw [cast_finValue, narrow32, convert, hu]
  exact ⟨roundsTo_roundPat (truncates_exact m e) (by simp) _, signOf_roundPat .b32 _ m e false⟩

/-- The magnitude that `infMag` would be, as a power of two. -/
theorem magInt_infMag_value (f : Fmt) :
    (magInt f (infMag f) : ℚ) * 2 ^ minExp f = 2 ^ ((fracBits f + 1 + topBinade f : ℕ) + minExp f) := by
  rw [magInt_infMag, zpow_add₀ (by norm_num), zpow_natCast]
  push_cast
  ring

theorem widen64_exact {a : Pat} {x : ℚ} (h : realOf .b32 a = some x) :
    realOf .b64 (widen64 a) = some x ∧ signOf .b64 (widen64 a) = signOf .b32 a := by
  obtain ⟨m, e, hu, hm, he, rfl, hbound⟩ := unpack_of_realOf_bounds h
  rw [widen64, convert, hu]
  have hmin : minExp .b64 ≤ minExp .b32 := by decide
  refine ⟨realOf_roundPat_exact _ (hm.trans (by decide)) (hmin.trans he) (hbound.trans ?_),
    signOf_roundPat .b64 _ m e false⟩
  rw [magInt_infMag_value, magInt_infMag_value]
  exact zpow_lt_zpow_right₀ (by norm_num) (by decide)

theorem i2f32_exact {n : ℤ} (hlo : -127 ≤ n) (hhi : n ≤ 128) : realOf .b32 (i2f32 n) = some (n : ℚ) := by
  have hsmall : n.natAbs < 2 ^ 8 := by omega
  have hbound : (n.natAbs : ℚ) * 2 ^ (0 : ℤ) < magInt .b32 (infMag .b32) * 2 ^ minExp .b32 := by
    rw [magInt_infMag_value, zpow_zero, mul_one]
    calc (n.natAbs : ℚ) < 2 ^ 8 := by exact_mod_cast hsmall
      _ = 2 ^ (8 : ℤ) := by norm_num
      _ < _ := zpow_lt_zpow_right₀ (by norm_num) (by decide)
  have hsign : signed (decide (n < 0)) n.natAbs = n := by
    by_cases h : n < 0
    · simp only [signed, h, decide_true, if_true]; omega
    · simp only [signed, h, decide_false, Bool.false_eq_true, if_false]; omega
  rw [i2f32, realOf_roundPat_exact _ (hsmall.trans (by decide)) (by decide) hbound, hsign, zpow_zero, mul_one]

theorem convert_infPat (f g : Fmt) (n : Bool) : convert f g (infPat f n) = infPat g n := by
  rw [convert, unpack_infPat]

theorem convert_of_isNan {f : Fmt} (g : Fmt) {a : Pat} (h : isNan f a = true) : convert f g a = cnan g := by
  rw [convert, unpack_of_isNan f a h]

/-- Settles O45: the sign bit by the flip and the mask of its weight, the conversions by rounding and by exactness. -/
theorem signChangesAndConversions : Obligations.SignChangesAndConversions := by
  refine ⟨fun f a hfit => ⟨fun h => ?_, fun h => ?_⟩, fun a x => narrow32_roundsTo, fun n => ?_,
    fun a x => widen64_exact, fun a => ?_, fun n => i2f32_exact⟩
  · simp [fneg, fabs, h]
  · rw [fneg, fabs, h]
    exact ⟨flipSign_eq_xor hfit, clearSign_eq_and hfit⟩
  · exact ⟨convert_infPat .b64 .b32 n, convert_infPat .b32 .b64 n⟩
  · exact ⟨convert_of_isNan .b32, convert_of_isNan .b64⟩

end Sys2Proof.Machine
end

section
/-! PROOFS. Special operands (00_scope.md R9, R10, R11). -/

namespace Sys2Proof.Machine

/-! ## Special operands (R9, R10, R11): each primitive by the unpacked form of its operands -/

theorem flipSign_pack (f : Fmt) (n : Bool) {m : ℕ} (h : m < signWeight f) : flipSign f (pack f n m) = pack f (!n) m := by
  rw [flipSign, signOf_pack f n m h, magOf_pack f n m h]

@[simp] theorem flipSign_infPat (f : Fmt) (n : Bool) : flipSign f (infPat f n) = infPat f (!n) :=
  flipSign_pack f n (infMag_lt f)

@[simp] theorem flipSign_pack_zero (f : Fmt) (n : Bool) : flipSign f (pack f n 0) = pack f (!n) 0 :=
  flipSign_pack f n (signWeight_pos f)

@[simp] theorem roundPat_zero (f : Fmt) (n : Bool) (e : ℤ) (st : Bool) : roundPat f n 0 e st = pack f n 0 := by
  rw [roundPat, roundMag_zero]

@[simp] theorem divFin_zero (f : Fmt) (n : Bool) (ea : ℤ) (mb : ℕ) (eb : ℤ) : divFin f n 0 ea mb eb = pack f n 0 := by
  simp [divFin]

@[simp] theorem sumFin_zero (f : Fmt) (na : Bool) (ea : ℤ) (nb : Bool) (eb : ℤ) :
    sumFin f na 0 ea nb 0 eb = pack f (na && nb) 0 := by
  simp [sumFin, signed]

section Nan

variable {f : Fmt} {a : Pat} (h : isNan f a = true)
include h

theorem fadd_nan_left (b : Pat) : fadd f a b = cnan f := by rw [fadd, unpack_of_isNan f a h]

theorem fadd_nan_right (b : Pat) : fadd f b a = cnan f := by
  rw [fadd, unpack_of_isNan f a h]
  cases unpack f b <;> rfl

theorem isNan_flipSign : isNan f (flipSign f a) = true := by
  rwa [isNan, flipSign, magOf_pack f _ _ (magOf_lt f a)]

theorem fmul_nan_left (b : Pat) : fmul f a b = cnan f := by rw [fmul, unpack_of_isNan f a h]

theorem fmul_nan_right (b : Pat) : fmul f b a = cnan f := by
  rw [fmul, unpack_of_isNan f a h]
  cases unpack f b <;> rfl

theorem fdiv_nan_left (b : Pat) : fdiv f a b = cnan f := by rw [fdiv, unpack_of_isNan f a h]

theorem fdiv_nan_right (b : Pat) : fdiv f b a = cnan f := by
  rw [fdiv, unpack_of_isNan f a h]
  cases unpack f b <;> rfl

theorem fsqrt_nan : fsqrt f a = cnan f := by rw [fsqrt, unpack_of_isNan f a h]

theorem ffma_nan_first (b c : Pat) : ffma f a b c = cnan f := by rw [ffma, unpack_of_isNan f a h]

theorem ffma_nan_second (b c : Pat) : ffma f b a c = cnan f := by
  rw [ffma, unpack_of_isNan f a h]
  cases unpack f b <;> rfl

theorem ffma_nan_third (b c : Pat) : ffma f b c a = cnan f := by
  rw [ffma, unpack_of_isNan f a h]
  cases unpack f b <;> cases unpack f c <;> rfl

end Nan

/-- R11: a NaN operand. -/
theorem nan_operand {f : Fmt} (a b c : Pat) (h : isNan f a = true ∨ isNan f b = true) :
    fadd f a b = cnan f ∧ fsub f a b = cnan f ∧ fmul f a b = cnan f ∧ fdiv f a b = cnan f ∧ ffmod f a b = cnan f ∧
      ffma f a b c = cnan f ∧ ffma f a c b = cnan f ∧ ffma f c a b = cnan f := by
  rcases h with h | h
  · exact ⟨fadd_nan_left h b, fadd_nan_left h _, fmul_nan_left h b, fdiv_nan_left h b, ffmod_of_isNan_left b h,
      ffma_nan_first h b c, ffma_nan_first h c b, ffma_nan_second h c b⟩
  · exact ⟨fadd_nan_right h a, fadd_nan_right (isNan_flipSign h) a, fmul_nan_right h a, fdiv_nan_right h a,
      ffmod_of_isNan_right a h, ffma_nan_second h a c, ffma_nan_third h a c, ffma_nan_third h c a⟩

theorem two_infinities_or_zeros (f : Fmt) (m n : Bool) :
    fadd f (infPat f m) (infPat f n) = (if m = n then infPat f m else cnan f) ∧
    fsub f (infPat f m) (infPat f n) = (if m = n then cnan f else infPat f m) ∧
    fmul f (infPat f m) (infPat f n) = infPat f (m != n) ∧
    fmul f (infPat f m) (pack f n 0) = cnan f ∧ fmul f (pack f n 0) (infPat f m) = cnan f ∧
    fdiv f (pack f m 0) (pack f n 0) = cnan f ∧ fdiv f (infPat f m) (infPat f n) = cnan f ∧
    fadd f (pack f m 0) (pack f n 0) = pack f (m && n) 0 ∧ fsub f (pack f m 0) (pack f n 0) = pack f (m && !n) 0 ∧
    fsqrt f (pack f m 0) = pack f m 0 ∧ fsqrt f (infPat f m) = (if m then cnan f else infPat f false) := by
  refine ⟨by simp [fadd], ?_, by simp [fmul], by simp [fmul], by simp [fmul], by simp [fdiv], by simp [fdiv],
    by simp [fadd], by simp [fsub, fadd], by simp [fsqrt], by simp [fsqrt]⟩
  cases m <;> cases n <;> simp [fsub, fadd]

theorem finite_with_infinity_or_zero {f : Fmt} (a : Pat) (n : Bool) (h : isFinite f a = true) :
    fadd f a (infPat f n) = infPat f n ∧ fadd f (infPat f n) a = infPat f n ∧
    fsub f a (infPat f n) = infPat f (!n) ∧ fsub f (infPat f n) a = infPat f n ∧
    fdiv f a (infPat f n) = pack f (signOf f a != n) 0 ∧ fdiv f (infPat f n) a = infPat f (n != signOf f a) ∧
    fmul f a (pack f n 0) = pack f (signOf f a != n) 0 ∧ fmul f (pack f n 0) a = pack f (n != signOf f a) 0 := by
  obtain ⟨m, e, hu, -⟩ := unpack_of_isFinite f a h
  exact ⟨by simp [fadd, hu], by simp [fadd, hu], by simp [fsub, fadd, hu], by simp [fsub, fadd, unpack_flipSign, hu],
    by simp [fdiv, hu], by simp [fdiv, hu], by simp [fmul, hu], by simp [fmul, hu]⟩

theorem nonzero_with_infinity_or_zero {f : Fmt} (a : Pat) (n : Bool) (h : isFinite f a = true)
    (h0 : isZero f a = false) :
    fdiv f a (pack f n 0) = infPat f (signOf f a != n) ∧
      fmul f a (infPat f n) = infPat f (signOf f a != n) ∧ fmul f (infPat f n) a = infPat f (n != signOf f a) ∧
      (signOf f a = true → fsqrt f a = cnan f) ∧ fdiv f (pack f n 0) a = pack f (n != signOf f a) 0 := by
  obtain ⟨m, e, hu, hm⟩ := unpack_of_isFinite f a h
  have hm0 : m ≠ 0 := fun h => by simp [hm.1 h] at h0
  exact ⟨by simp [fdiv, hu, hm0], by simp [fmul, hu, hm0], by simp [fmul, hu, hm0],
    fun hs => by simp [fsqrt, hu, hm0, hs], by simp [fdiv, hu, hm0]⟩

theorem fadd_cancel {f : Fmt} {a b : Pat} {x : ℚ} (ha : realOf f a = some x) (hb : realOf f b = some (-x))
    (hx : x ≠ 0) : fadd f a b = pack f false 0 := by
  obtain ⟨na, ma, ea, hua, hva⟩ := unpack_of_realOf f a x ha
  obtain ⟨nb, mb, eb, hub, hvb⟩ := unpack_of_realOf f b (-x) hb
  rw [fadd, hua, hub]
  exact sumFin_cancel f na nb ma mb ea eb x hx hva hvb

theorem fsub_cancel {f : Fmt} {a b : Pat} {x : ℚ} (ha : realOf f a = some x) (hb : realOf f b = some x)
    (hx : x ≠ 0) : fsub f a b = pack f false 0 :=
  fadd_cancel ha (realOf_flipSign hb) hx

/-! ### The fused product-sum, by the unpacked factors -/

section Ffma

variable {f : Fmt} {a b : Pat}

theorem ffma_inf_inf {na nb : Bool} (ha : unpack f a = .inf na) (hb : unpack f b = .inf nb) (c : Pat) :
    ffma f a b c = ffma.addInf f (na != nb) (unpack f c) := by
  rw [ffma, ha, hb]
  cases unpack f c <;> rfl

theorem ffma_inf_fin {na nb : Bool} {mb : ℕ} {eb : ℤ} (ha : unpack f a = .inf na) (hb : unpack f b = .fin nb mb eb)
    (c : Pat) : ffma f a b c = if mb = 0 then cnan f else ffma.addInf f (na != nb) (unpack f c) := by
  rw [ffma, ha, hb]
  cases unpack f c with
  | nan => exact (ite_self _).symm
  | inf n => rfl
  | fin n m e => rfl

theorem ffma_fin_inf {na nb : Bool} {ma : ℕ} {ea : ℤ} (ha : unpack f a = .fin na ma ea) (hb : unpack f b = .inf nb)
    (c : Pat) : ffma f a b c = if ma = 0 then cnan f else ffma.addInf f (na != nb) (unpack f c) := by
  rw [ffma, ha, hb]
  cases unpack f c with
  | nan => exact (ite_self _).symm
  | inf n => rfl
  | fin n m e => rfl

theorem ffma_fin_fin_infPat {na nb : Bool} {ma mb : ℕ} {ea eb : ℤ} (ha : unpack f a = .fin na ma ea)
    (hb : unpack f b = .fin nb mb eb) (p : Bool) : ffma f a b (infPat f p) = infPat f p := by
  rw [ffma, ha, hb, unpack_infPat]

theorem ffma_fin_fin_fin {c : Pat} {na nb nc : Bool} {ma mb mc : ℕ} {ea eb ec : ℤ} (ha : unpack f a = .fin na ma ea)
    (hb : unpack f b = .fin nb mb eb) (hc : unpack f c = .fin nc mc ec) :
    ffma f a b c = sumFin f (na != nb) (ma * mb) (ea + eb) nc mc ec := by
  rw [ffma, ha, hb, hc]

theorem addInf_infPat (n p : Bool) :
    ffma.addInf f n (unpack f (infPat f p)) = if n = p then infPat f p else cnan f := by
  rw [unpack_infPat, ffma.addInf]
  split
  next h => rw [h]
  next h => rfl

theorem addInf_of_isFinite {c : Pat} (n : Bool) (h : isFinite f c = true) :
    ffma.addInf f n (unpack f c) = infPat f n := by
  obtain ⟨m, e, hu, -⟩ := unpack_of_isFinite f c h
  rw [hu, ffma.addInf]

end Ffma

theorem ffma_infinities (f : Fmt) (m n p : Bool) (c : Pat) :
    ffma f (infPat f m) (pack f n 0) c = cnan f ∧ ffma f (pack f n 0) (infPat f m) c = cnan f ∧
    ffma f (infPat f m) (infPat f n) (infPat f p) = (if (m != n) = p then infPat f p else cnan f) ∧
    (isFinite f c = true → ffma f (infPat f m) (infPat f n) c = infPat f (m != n)) := by
  have hm := unpack_infPat f m
  have hn := unpack_infPat f n
  have h0 := unpack_pack_zero f n
  refine ⟨ffma_inf_fin hm h0 c, ffma_fin_inf h0 hm c, ?_, fun hc => ?_⟩
  · rw [ffma_inf_inf hm hn, addInf_infPat]
  · rw [ffma_inf_inf hm hn, addInf_of_isFinite _ hc]

theorem ffma_finite_factor {f : Fmt} (a b c : Pat) (n p : Bool) (h : isFinite f a = true) :
    (isZero f a = false →
      ffma f (infPat f n) a (infPat f p) = (if (n != signOf f a) = p then infPat f p else cnan f) ∧
      ffma f a (infPat f n) (infPat f p) = (if (signOf f a != n) = p then infPat f p else cnan f) ∧
      (isFinite f c = true → ffma f (infPat f n) a c = infPat f (n != signOf f a) ∧
        ffma f a (infPat f n) c = infPat f (signOf f a != n))) ∧
    (isFinite f b = true → ffma f a b (infPat f p) = infPat f p) ∧
    ffma f a (pack f n 0) (pack f p 0) = pack f ((signOf f a != n) && p) 0 ∧
    ffma f (pack f n 0) a (pack f p 0) = pack f ((n != signOf f a) && p) 0 := by
  obtain ⟨m, e, hu, hm⟩ := unpack_of_isFinite f a h
  have hn := unpack_infPat f n
  have h0 := unpack_pack_zero f n
  have hp := unpack_pack_zero f p
  refine ⟨fun hz => ?_, fun hb => ?_, ?_, ?_⟩
  · have hm0 : m ≠ 0 := fun h => by simp [hm.1 h] at hz
    simp only [ffma_inf_fin hn hu, ffma_fin_inf hu hn, if_neg hm0, addInf_infPat, true_and]
    exact fun hc => ⟨addInf_of_isFinite _ hc, addInf_of_isFinite _ hc⟩
  · obtain ⟨mb, eb, hub, -⟩ := unpack_of_isFinite f b hb
    exact ffma_fin_fin_infPat hu hub p
  · rw [ffma_fin_fin_fin hu h0 hp, Nat.mul_zero, sumFin_zero]
  · rw [ffma_fin_fin_fin h0 hu hp, Nat.zero_mul, sumFin_zero]

theorem ffma_cancel {f : Fmt} (a b c : Pat) (x y : ℚ) (ha : realOf f a = some x) (hb : realOf f b = some y)
    (hxy : x * y ≠ 0) (hc : realOf f c = some (-(x * y))) : ffma f a b c = pack f false 0 := by
  obtain ⟨na, ma, ea, hua, hva⟩ := unpack_of_realOf f a x ha
  obtain ⟨nb, mb, eb, hub, hvb⟩ := unpack_of_realOf f b y hb
  obtain ⟨nc, mc, ec, huc, hvc⟩ := unpack_of_realOf f c _ hc
  have hprod : x * y = (signed (na != nb) (ma * mb) : ℚ) * 2 ^ (ea + eb) := by
    rw [hva, hvb, zpow_add₀ (by norm_num)]
    cases na <;> cases nb <;> simp [signed] <;> ring
  rw [ffma_fin_fin_fin hua hub huc]
  exact sumFin_cancel f (na != nb) nc (ma * mb) mc (ea + eb) ec (x * y) hxy hprod hvc

/-- Settles O44, from the lemma of each group of special operands. -/
theorem specialOperandsFollowIeee : Obligations.SpecialOperandsFollowIeee := by
  intro f
  refine ⟨nan_operand, fun a => fsqrt_nan, fun a b hfit _ => ?_, two_infinities_or_zeros f, fun a n h => ?_,
    fun a b x ha hx => ⟨fun hb => fadd_cancel ha hb hx, fun hb => fsub_cancel ha hb hx⟩, ffma_infinities f,
    ffma_finite_factor, ffma_cancel⟩
  · rw [fsub, flipSign_eq_xor hfit]
  · obtain ⟨h1, h2, h3, h4, h5, h6, h7, h8⟩ := finite_with_infinity_or_zero a n h
    exact ⟨h1, h2, h3, h4, h5, h6, h7, h8, nonzero_with_infinity_or_zero a n h⟩

end Sys2Proof.Machine
end

section
/-! PROOFS. Bytes of MemRead and MemWrite (20_memory.md R84, R85), and the host's accesses of DMEM when no command runs (R96). -/

namespace Sys2Proof.Machine

/-! ## Bytes of MemRead and MemWrite (R84, R85) -/

/-- Byte `i` of the number that `n` bytes make. -/
theorem readNat_div_mod (m : Memory) (a n i : Nat) (h : i < n) :
    readNat m a n / 256 ^ i % 256 = (readByte m (a + i)).toNat := by
  induction n generalizing a i with
  | zero => omega
  | succ n ih =>
    have hb := (readByte m a).isLt
    simp only [readNat]
    cases i with
    | zero => simp only [pow_zero, Nat.div_one, Nat.add_zero]; omega
    | succ i =>
      have hq : ((readByte m a).toNat + 256 * readNat m (a + 1) n) / 256 = readNat m (a + 1) n := by omega
      rw [pow_succ', ← Nat.div_div_eq_div_mul, hq, ih (a + 1) i (by omega), Nat.add_right_comm, Nat.add_assoc]

/-- Byte `i` of `n` bytes written is bits `8i+7` to `8i` of the number. -/
theorem readByte_writeNat (m : Memory) (a n v i : Nat) (hm : Memory.wf m) (h : i < n) :
    readByte (writeNat m a n v) (a + i) = BitVec.ofNat 8 (v / 256 ^ i) := by
  induction n generalizing m a v i with
  | zero => omega
  | succ n ih =>
    simp only [writeNat]
    cases i with
    | zero =>
      rw [readByte_writeNat_other _ _ _ _ _ (by omega), Nat.add_zero, readByte_writeByte_same m a _ hm, pow_zero,
        Nat.div_one]
    | succ i =>
      rw [show a + (i + 1) = a + 1 + i by omega, ih _ (a + 1) _ i (wf_writeByte m a _ hm) (by omega), pow_succ',
        Nat.div_div_eq_div_mul]

theorem two_pow_eight_mul (i : Nat) : 2 ^ (8 * i) = 256 ^ i := Nat.pow_mul 2 8 i

theorem memRead_toNat (m : Memory) (a n : Nat) (h : n ≤ 8) : (memRead m a n).toNat = readNat m a n := by
  rw [memRead, BitVec.toNat_ofNat]
  refine Nat.mod_eq_of_lt (lt_of_lt_of_le (readNat_lt m a n) ?_)
  rw [← two_pow_eight_mul]
  exact Nat.pow_le_pow_right (by decide) (by omega)

theorem memRead_lt (m : Memory) (a n : Nat) (h : n ≤ 8) : (memRead m a n).toNat < 2 ^ (8 * n) := by
  rw [memRead_toNat m a n h, two_pow_eight_mul]
  exact readNat_lt m a n

theorem extractLsb'_memRead (m : Memory) (a n i : Nat) (h : n ≤ 8) (hi : i < n) :
    (memRead m a n).extractLsb' (8 * i) 8 = readByte m (a + i) := by
  apply BitVec.eq_of_toNat_eq
  rw [BitVec.extractLsb'_toNat, memRead_toNat m a n h, Nat.shiftRight_eq_div_pow, two_pow_eight_mul]
  exact readNat_div_mod m a n i hi

theorem readByte_memWrite (m : Memory) (a n i : Nat) (v : BitVec 64) (hm : Memory.wf m) (hi : i < n) :
    readByte (memWrite m a n v) (a + i) = v.extractLsb' (8 * i) 8 := by
  rw [memWrite, readByte_writeNat m a n _ i hm hi, BitVec.extractLsb', Nat.shiftRight_eq_div_pow, two_pow_eight_mul]

theorem bytesOutside_memWrite (m : Memory) (a n : Nat) (v : BitVec 64) : BytesOutside a n m (memWrite m a n v) :=
  fun p hp => readByte_writeNat_other m a n v.toNat p hp

theorem mem_memWrite (m : Memory) (a n : Nat) (v : BitVec 64) :
    ∀ c ∈ memWrite m a n v, (a ≤ c.1 ∧ c.1 < a + n) ∨ c ∈ m := mem_writeNat m a n v.toNat

/-- Settles O19, from the byte lemmas above, which hold for every width up to 8. -/
theorem memReadAndMemWriteAreLittleEndian : Obligations.MemReadAndMemWriteAreLittleEndian := by
  intro b m a n v hm hn _ _
  have h8 : n ≤ 8 := by omega
  exact ⟨fun i hi => extractLsb'_memRead m a n i h8 hi, memRead_lt m a n h8, fun i hi => readByte_memWrite m a n i v hm hi,
    bytesOutside_memWrite m a n v⟩

/-! ## The host's accesses of DMEM (R96) -/

theorem hostBytes_le (n : HostSize) : hostBytes n ≤ 8 := by cases n <;> decide

theorem hostInRange_iff (b : Build) (a : Word) (n : HostSize) :
    hostInRange b a n = true ↔ a.toNat % hostBytes n = 0 ∧ a.toNat + hostBytes n ≤ b.memBytes := by
  simp [hostInRange]

theorem State.hostWrite_of_inRange {s : State} {a : Word} {n : HostSize} (v : BitVec 64)
    (h : hostInRange s.build a n = true) :
    s.hostWrite a n v = s.setDmem (memWrite s.dmem a.toNat (hostBytes n) v) := if_pos h

theorem State.hostWrite_of_not_inRange {s : State} {a : Word} {n : HostSize} (v : BitVec 64)
    (h : ¬hostInRange s.build a n = true) : s.hostWrite a n v = s := if_neg h

/-- A host write touches DMEM alone. -/
theorem State.hostWrite_frame (s : State) (a : Word) (n : HostSize) (v : BitVec 64) :
    SameButDmem s (s.hostWrite a n v) := by
  by_cases h : hostInRange s.build a n = true
  · rw [hostWrite_of_inRange v h]; rfl
  · rw [hostWrite_of_not_inRange v h]; rfl

/-- A host read touches what the host last read and the number of the next free value alone. -/
theorem State.hostRead_frame (s : State) (a : Word) (n : HostSize) :
    s.hostRead a n = { s with hostData := (s.hostRead a n).hostData, free := (s.hostRead a n).free } := by
  unfold hostRead
  split
  · rfl
  · rfl

theorem State.hostRead_hostData {s : State} {a : Word} {n : HostSize} (h : hostInRange s.build a n = true) :
    (s.hostRead a n).hostData = memRead s.dmem a.toNat (hostBytes n) := by
  rw [hostRead, if_pos h]

/-- In `IDLE` and in `FAULT` the host's write is performed at once. -/
theorem step_hostWrite {s : State} {a : Word} {n : HostSize} {v : BitVec 64} {rest : List HostTx}
    (hb : buildLegal s.build = true) (hr : s.run = .idle ∨ s.run = .fault) (hw : s.waiting = none)
    (hh : s.host = .write a n v :: rest) : step s = .next (s.popHost.hostWrite a n v) := by
  rcases hr with hr | hr
  · simp [step, hb, hr, stepIdle, hw, hh]
  · simp [step, hb, hr, stepFault, hw, hh]

/-- In `IDLE` and in `FAULT` the host's read is performed at once. -/
theorem step_hostRead {s : State} {a : Word} {n : HostSize} {rest : List HostTx}
    (hb : buildLegal s.build = true) (hr : s.run = .idle ∨ s.run = .fault) (hw : s.waiting = none)
    (hh : s.host = .read a n :: rest) : step s = .next (s.popHost.hostRead a n) := by
  rcases hr with hr | hr
  · simp [step, hb, hr, stepIdle, hw, hh]
  · simp [step, hb, hr, stepFault, hw, hh]

theorem State.popHost_eq {s : State} {q : HostTx} {rest : List HostTx} (h : s.host = q :: rest) :
    s.popHost = { s with host := rest } := by
  rw [popHost, h, List.tail_cons]

/-- Settles O20: the step is the access on the state without the transaction, and the access has its frame and its bytes. -/
theorem hostAccessesOfDmem : Obligations.HostAccessesOfDmem := by
  intro s rest a n v hb hr hw hm
  refine ⟨fun hh => ⟨_, step_hostWrite hb hr hw hh, ?_, fun hin => ?_, fun hout => ?_⟩,
    fun hh => ⟨_, step_hostRead hb hr hw hh, ?_, fun hin => ?_⟩⟩
  · rw [State.popHost_eq hh]
    exact State.hostWrite_frame _ a n v
  · rw [State.hostWrite_of_inRange (s := s.popHost) v ((hostInRange_iff _ a n).2 hin)]
    exact ⟨fun i hi => readByte_memWrite s.dmem a.toNat (hostBytes n) i v hm hi, bytesOutside_memWrite s.dmem _ _ v⟩
  · rw [State.hostWrite_of_not_inRange (s := s.popHost) v (mt (hostInRange_iff _ a n).1 hout), State.popHost_dmem]
  · rw [State.popHost_eq hh]
    exact State.hostRead_frame _ a n
  · rw [State.hostRead_hostData (s := s.popHost) ((hostInRange_iff _ a n).2 hin)]
    exact ⟨fun i hi => extractLsb'_memRead s.dmem _ _ i (hostBytes_le n) hi, memRead_lt s.dmem _ _ (hostBytes_le n)⟩

end Sys2Proof.Machine
end

section
/-! PROOFS. Every step keeps DMEM in canonical form and inside `MEM_BYTES` (20_memory.md R80, R88, R96): an update keeps it
when the region it writes has passed its check. -/

namespace Sys2Proof.Machine

/-! ## What keeps DMEM legal from one state to the next -/

/-- From `s` to `t` the build stays, the canonical form is kept, and DMEM lists nothing new at or above `MEM_BYTES`. -/
structure KeepsDmem (s t : State) : Prop where
  build : t.build = s.build
  canonical : DmemCanonical s → DmemCanonical t
  inside : ∀ c ∈ t.dmem, c.1 < s.build.memBytes ∨ c ∈ s.dmem

/-- An outcome that, when it is a next state, has one with the property. -/
def NextHas (P : State → Prop) (o : Host.Outcome State Fault Refusal) : Prop := ∀ t, o = .next t → P t

theorem KeepsDmem.invariant {s t : State} (h : KeepsDmem s t) (hc : DmemCanonical s) (hi : DmemInside s) :
    DmemCanonical t ∧ DmemInside t := by
  refine ⟨h.canonical hc, fun c hm => ?_⟩
  rw [h.build]
  exact (h.inside c hm).elim id (hi c)

theorem keepsDmem_of_eq {s t : State} (hb : t.build = s.build) (hm : t.dmem = s.dmem) : KeepsDmem s t where
  build := hb
  canonical h := by rwa [DmemCanonical, hm]
  inside c hc := .inr (hm ▸ hc)

theorem keepsDmem_of_empty {s t : State} (hb : t.build = s.build) (hm : t.dmem = []) : KeepsDmem s t where
  build := hb
  canonical _ := by simp [DmemCanonical, hm, Memory.wf]
  inside c hc := by simp [hm] at hc

theorem KeepsDmem.trans {s t u : State} (h : KeepsDmem s t) (h' : KeepsDmem t u) : KeepsDmem s u where
  build := h'.build.trans h.build
  canonical := h'.canonical ∘ h.canonical
  inside c hc := (h'.inside c hc).elim (fun hl => .inl (h.build ▸ hl)) (h.inside c)

/-- A DMEM that differs from the old one inside a region of `len` bytes that lies inside DMEM. -/
theorem keepsDmem_of_region {s t : State} (a len : Nat) (hb : t.build = s.build)
    (hwf : Memory.wf s.dmem → Memory.wf t.dmem) (hm : ∀ c ∈ t.dmem, (a ≤ c.1 ∧ c.1 < a + len) ∨ c ∈ s.dmem)
    (hin : a + len ≤ s.build.memBytes) : KeepsDmem s t where
  build := hb
  canonical := hwf
  inside c hc := (hm c hc).imp_left fun h => lt_of_lt_of_le h.2 hin

/-- Updates one after the other, each of which keeps DMEM in any state of the build. -/
theorem keepsDmem_foldl {α : Type} (g : State → α → State) (ps : List α) (s : State)
    (h : ∀ p ∈ ps, ∀ u : State, u.build = s.build → KeepsDmem u (g u p)) : KeepsDmem s (ps.foldl g s) := by
  induction ps generalizing s with
  | nil => exact keepsDmem_of_eq rfl rfl
  | cons p ps ih =>
    have hp : KeepsDmem s (g s p) := h p List.mem_cons_self s rfl
    exact hp.trans (ih (g s p) fun q hq u hu => h q (List.mem_cons_of_mem p hq) u (hu.trans hp.build))

theorem nextHas_next {P : State → Prop} {t : State} (h : P t) : NextHas P (.next t) := by
  rintro u ⟨⟩
  exact h

/-- A command keeps DMEM when its effect does once its checks have passed: fault entry (60_exceptions.md R320) writes no
DMEM. -/
theorem checked_keepsDmem {s u : State} {c : Option Raised} (h : c = none → KeepsDmem s u) :
    NextHas (KeepsDmem s) (s.checked c u) := by
  intro t ht
  rcases s.checked_cases u t c ht with ⟨hc, rfl⟩ | ⟨e, -, rfl⟩
  · exact h hc
  · exact keepsDmem_of_eq rfl rfl

/-! ## The buffer forms on a region that passes its check -/

/-- The bytes of a region that passes its check lie inside DMEM, if it has any (R88). -/
theorem RegionOk.inside {b : Build} {base : Word} {n : Nat} (h : RegionOk b base n) (hn : n ≠ 0) :
    base.toNat + n * eb b.fmt ≤ b.memBytes := (h.resolve_left hn).2

theorem bqBuf_keepsDmem {s : State} {c : Chan} {base count : Word} (h : RegionOk s.build base count.toNat) :
    KeepsDmem s (s.bqBuf c base count) := by
  by_cases hn : count.toNat = 0
  · exact keepsDmem_of_eq rfl (by simp [State.bqBuf, hn, bqBufLoop])
  · exact keepsDmem_of_region _ _ rfl (wf_bqBufLoop s.fmt s.bq _ _ _ _) (mem_bqBufLoop s.fmt s.bq _ _ _ _) (h.inside hn)

theorem svfBuf_keepsDmem {s : State} {o : SvfOut} {c : Chan} {base count : Word}
    (h : RegionOk s.build base count.toNat) : KeepsDmem s (s.svfBuf o c base count) := by
  by_cases hn : count.toNat = 0
  · exact keepsDmem_of_eq rfl (by simp [State.svfBuf_eq, hn, svfBufLoop])
  · exact keepsDmem_of_region _ _ rfl (wf_svfBufLoop s.build s.svf o _ _ _ _) (mem_svfBufLoop s.build s.svf o _ _ _ _)
      (h.inside hn)

theorem bqOpt_keepsDmem {s : State} {c : Chan} {base count : Word} (hn : 2 ≤ count.toNat)
    (h : RegionOk s.build base count.toNat) : KeepsDmem s (s.bqOpt c base count) :=
  keepsDmem_of_region _ _ rfl (wf_bqOptRun s.fmt s.bq _ _ _ _) (mem_bqOptRun s.fmt s.bq _ _ _ _ hn) (h.inside (by omega))

theorem bqOpt2_keepsDmem {s : State} {c : Chan} {inp out count : Word} (hn : 2 ≤ count.toNat)
    (h : RegionOk s.build out count.toNat) : KeepsDmem s (s.bqOpt2 c inp out count) :=
  keepsDmem_of_region _ _ rfl (wf_bqOpt2Run s.fmt s.bq _ _ _ _ _) (mem_bqOpt2Run s.fmt s.bq _ _ _ _ _ hn)
    (h.inside (by omega))

/-! ## The commands that write DMEM (R81) -/

theorem execSt_keepsDmem (xs : XReg) (ra : RReg) (imm : BitVec 16) (s : State) :
    NextHas (KeepsDmem s) (execSt xs ra imm s) :=
  checked_keepsDmem fun hc => by
    have hr := ((checkElems_eq_none _ _ _).1 hc).inside Nat.one_ne_zero
    rw [Nat.one_mul] at hr
    exact keepsDmem_of_region _ _ rfl (wf_setElem s.fmt _ _ _) (mem_setElem s.fmt _ _ _) hr

theorem execSvfFrame_keepsDmem (rd : RReg) (xa : XReg) (ch : Chan) (s : State) :
    NextHas (KeepsDmem s) (execSvfFrame rd xa ch s) :=
  checked_keepsDmem fun hc => by
    simp only [firstRaised_eq_none, List.forall_mem_cons, checkElems_eq_none] at hc
    obtain ⟨-, hr, -⟩ := hc
    refine keepsDmem_of_region (s.getR rd).toNat (3 * eb s.fmt) rfl
      (fun h => wf_setElem _ _ _ _ (wf_setElem _ _ _ _ (wf_setElem _ _ _ _ h))) (fun c hm => ?_) (hr.inside (by decide))
    have hpos := eb_pos s.fmt
    rcases mem_setElem _ _ _ _ c hm with h | hm
    · left; simp only [elemAddr] at h; omega
    · rcases mem_setElem _ _ _ _ c hm with h | hm
      · left; simp only [elemAddr] at h; omega
      · rcases mem_setElem _ _ _ _ c hm with h | hm
        · left; simp only [elemAddr] at h; omega
        · exact .inr hm

theorem execBqBuf_keepsDmem (ra rb : RReg) (ch : Chan) (s : State) : NextHas (KeepsDmem s) (execBqBuf ra rb ch s) :=
  checked_keepsDmem fun hc => by
    simp only [firstRaised_eq_none, List.forall_mem_cons, checkElems_eq_none] at hc
    obtain ⟨-, hr, -⟩ := hc
    exact bqBuf_keepsDmem hr

theorem svfBufCmd_keepsDmem (o : SvfOut) (ra rb : RReg) (ch : Chan) (s : State) :
    NextHas (KeepsDmem s) (s.svfBufCmd o ra rb ch) :=
  checked_keepsDmem fun hc => by
    simp only [firstRaised_eq_none, List.forall_mem_cons, checkElems_eq_none] at hc
    obtain ⟨-, hr, -⟩ := hc
    exact svfBuf_keepsDmem hr

theorem execBqOpt_keepsDmem (ra rb : RReg) (ch : Chan) (s : State) : NextHas (KeepsDmem s) (execBqOpt ra rb ch s) :=
  checked_keepsDmem fun hc => by
    simp only [firstRaised_eq_none, List.forall_mem_cons, checkElems_eq_none, checkCount_eq_none] at hc
    obtain ⟨-, hn, hr, -⟩ := hc
    exact bqOpt_keepsDmem hn hr

theorem execBqOpt2_keepsDmem (rd ra rb : RReg) (ch : Chan) (s : State) :
    NextHas (KeepsDmem s) (execBqOpt2 rd ra rb ch s) :=
  checked_keepsDmem fun hc => by
    simp only [firstRaised_eq_none, List.forall_mem_cons, checkElems_eq_none, checkCount_eq_none] at hc
    obtain ⟨-, hn, -, hr, -⟩ := hc
    exact bqOpt2_keepsDmem hn hr

theorem execBqMbuf_keepsDmem (ra rb : RReg) (s : State) : NextHas (KeepsDmem s) (execBqMbuf ra rb s) :=
  checked_keepsDmem fun hc => by
    simp only [firstRaised_eq_none, List.forall_mem_cons, checkBuffers_eq_none] at hc
    obtain ⟨-, hr, -⟩ := hc
    exact keepsDmem_foldl _ _ s fun p hp u hu => bqBuf_keepsDmem (hu ▸ hr p hp)

theorem svfMbufCmd_keepsDmem (o : SvfOut) (ra rb : RReg) (s : State) :
    NextHas (KeepsDmem s) (s.svfMbufCmd o ra rb) :=
  checked_keepsDmem fun hc => by
    simp only [firstRaised_eq_none, List.forall_mem_cons, checkBuffers_eq_none] at hc
    obtain ⟨-, hr, -⟩ := hc
    exact keepsDmem_foldl _ _ s fun p hp u hu => svfBuf_keepsDmem (hu ▸ hr p hp)

theorem execBqMopt_keepsDmem (ra rb : RReg) (s : State) : NextHas (KeepsDmem s) (execBqMopt ra rb s) :=
  checked_keepsDmem fun hc => by
    simp only [firstRaised_eq_none, List.forall_mem_cons, checkBuffers_eq_none, checkCount_eq_none] at hc
    obtain ⟨hn, -, hr, -⟩ := hc
    exact keepsDmem_foldl _ _ s fun p hp u hu => bqOpt_keepsDmem hn (hu ▸ hr p hp)

theorem execBqMopt2_keepsDmem (rd ra rb : RReg) (s : State) : NextHas (KeepsDmem s) (execBqMopt2 rd ra rb s) :=
  checked_keepsDmem fun hc => by
    simp only [firstRaised_eq_none, List.forall_mem_cons, List.forall_mem_map, checkElems_eq_none,
      checkCount_eq_none] at hc
    obtain ⟨hn, -, -, hr, -⟩ := hc
    refine keepsDmem_foldl _ _ s fun p hp u hu => ?_
    obtain ⟨-, hout, -⟩ := hr p hp
    exact bqOpt2_keepsDmem hn (hu ▸ hout)

/-! ## The other commands -/

theorem execSvfReset_keepsDmem (xa : XReg) (s : State) : NextHas (KeepsDmem s) (execSvfReset xa s) :=
  have hfold : KeepsDmem s ((channels s.build).foldl (fun u c => u.setSvf c (svfZero s.fmt)) s) :=
    keepsDmem_foldl _ _ s fun _ _ _ _ => keepsDmem_of_eq rfl rfl
  nextHas_next (hfold.trans (keepsDmem_of_eq rfl rfl))

theorem execSvfSetc_keepsDmem (rd : RReg) (xa xb : XReg) (s : State) :
    NextHas (KeepsDmem s) (execSvfSetc rd xa xb s) := by
  simp only [execSvfSetc]
  split
  · exact nextHas_next (keepsDmem_of_eq rfl rfl)
  · exact nextHas_next (keepsDmem_of_eq rfl rfl)

/-- Every command keeps DMEM: the first two groups write a register or filter register only, without and with a check. -/
theorem exec_keepsDmem (i : Instr) (s : State) : NextHas (KeepsDmem s) (exec i s) := by
  cases i with
  | nop | setr | setrh | addri | mov | sinRef | sinFast | sinFaster | cosRef | cosFast | cosFaster | tanRef | tanFast
  | tanFaster | tanhRef | tanhFast | log2Ref | log2Fast | log2Bit | sqrtRef | sqrtFast | fmin | fmax | clip | within
  | const | bqLpN | bqLpCs | bqLpD | bqHpN | bqHpCs | bqHpD | bqBpN | bqBpCs | bqBpD | bqBrN | bqBrCs | bqBrD | bqApN
  | bqApCs | bqApD | svfSetu => exact nextHas_next (keepsDmem_of_eq rfl rfl)
  | ld | mfc | polyHorner | polyFma2 | polyEstrin | polyRat | bqProc | svfProcHp | svfProcBp | svfProcLp =>
    exact checked_keepsDmem fun _ => keepsDmem_of_eq rfl rfl
  | svfReset xa => exact execSvfReset_keepsDmem xa s
  | svfSetc rd xa xb => exact execSvfSetc_keepsDmem rd xa xb s
  | st xs ra imm => exact execSt_keepsDmem xs ra imm s
  | svfFrame rd xa ch => exact execSvfFrame_keepsDmem rd xa ch s
  | bqBuf ra rb ch => exact execBqBuf_keepsDmem ra rb ch s
  | bqOpt ra rb ch => exact execBqOpt_keepsDmem ra rb ch s
  | bqOpt2 rd ra rb ch => exact execBqOpt2_keepsDmem rd ra rb ch s
  | bqMbuf ra rb => exact execBqMbuf_keepsDmem ra rb s
  | bqMopt ra rb => exact execBqMopt_keepsDmem ra rb s
  | bqMopt2 rd ra rb => exact execBqMopt2_keepsDmem rd ra rb s
  | svfBufHp ra rb ch => exact svfBufCmd_keepsDmem .hp ra rb ch s
  | svfBufBp ra rb ch => exact svfBufCmd_keepsDmem .bp ra rb ch s
  | svfBufLp ra rb ch => exact svfBufCmd_keepsDmem .lp ra rb ch s
  | svfMbufHp ra rb => exact svfMbufCmd_keepsDmem .hp ra rb s
  | svfMbufBp ra rb => exact svfMbufCmd_keepsDmem .bp ra rb s
  | svfMbufLp ra rb => exact svfMbufCmd_keepsDmem .lp ra rb s

/-! ## The steps of the machine -/

theorem runCommand_keepsDmem (s : State) : NextHas (KeepsDmem s) (runCommand s) := by
  have hidle : KeepsDmem s { s with run := .idle } := keepsDmem_of_eq rfl rfl
  unfold runCommand
  split
  · exact fun t ht => hidle.trans (exec_keepsDmem _ _ t ht)
  · exact nextHas_next (keepsDmem_of_eq rfl rfl)

/-- A command run in a state that differs from `s` elsewhere. -/
theorem runCommand_keepsDmem_of_eq {s u : State} (hb : u.build = s.build) (hm : u.dmem = s.dmem) :
    NextHas (KeepsDmem s) (runCommand u) :=
  fun t ht => (keepsDmem_of_eq hb hm).trans (runCommand_keepsDmem u t ht)

theorem holdWrite_keepsDmem (s : State) (w : Word) : KeepsDmem s (s.holdWrite w) := by
  unfold State.holdWrite
  split
  · exact keepsDmem_of_eq rfl rfl
  · split
    · exact keepsDmem_of_eq rfl rfl
    · exact keepsDmem_of_eq rfl rfl

theorem hostRead_keepsDmem (s : State) (a : Word) (n : HostSize) : KeepsDmem s (s.hostRead a n) := by
  rw [State.hostRead_frame]
  exact keepsDmem_of_eq rfl rfl

theorem hostWrite_keepsDmem (s : State) (a : Word) (n : HostSize) (v : BitVec 64) :
    KeepsDmem s (s.hostWrite a n v) := by
  by_cases h : hostInRange s.build a n = true
  · rw [State.hostWrite_of_inRange v h]
    exact keepsDmem_of_region _ _ rfl (wf_memWrite _ _ _ v) (mem_memWrite _ _ _ v) ((hostInRange_iff _ a n).1 h).2
  · rw [State.hostWrite_of_not_inRange v h]
    exact keepsDmem_of_eq rfl rfl

theorem popHost_keepsDmem (s : State) : KeepsDmem s s.popHost := keepsDmem_of_eq rfl rfl

theorem hostReset_keepsDmem (s : State) : KeepsDmem s s.popHost.hostReset := keepsDmem_of_empty rfl rfl

theorem stepBusy_keepsDmem (s : State) : NextHas (KeepsDmem s) (stepBusy s) := by
  unfold stepBusy
  split
  · exact nextHas_next (hostReset_keepsDmem s)
  · exact nextHas_next (keepsDmem_of_eq rfl rfl)
  · exact nextHas_next ((popHost_keepsDmem s).trans (holdWrite_keepsDmem _ _))
  · exact runCommand_keepsDmem_of_eq rfl rfl
  · exact runCommand_keepsDmem s
  · exact runCommand_keepsDmem s
  · exact runCommand_keepsDmem s

theorem stepIdle_keepsDmem (s : State) : NextHas (KeepsDmem s) (stepIdle s) := by
  unfold stepIdle
  split
  · exact nextHas_next (keepsDmem_of_eq rfl rfl)
  · split
    · exact nextHas_next (keepsDmem_of_eq rfl rfl)
    · exact nextHas_next (hostReset_keepsDmem s)
    · exact nextHas_next (keepsDmem_of_eq rfl rfl)
    · exact nextHas_next ((popHost_keepsDmem s).trans (hostRead_keepsDmem _ _ _))
    · exact nextHas_next ((popHost_keepsDmem s).trans (hostWrite_keepsDmem _ _ _ _))
    · exact nextHas_next (keepsDmem_of_eq rfl rfl)
    · exact nextHas_next (popHost_keepsDmem s)

theorem stepFault_keepsDmem (s : State) : NextHas (KeepsDmem s) (stepFault s) := by
  unfold stepFault
  split
  · exact nextHas_next (keepsDmem_of_eq rfl rfl)
  · split
    · exact nextHas_next (keepsDmem_of_eq rfl rfl)
    · exact nextHas_next (hostReset_keepsDmem s)
    · exact nextHas_next (popHost_keepsDmem s)
    · exact nextHas_next ((popHost_keepsDmem s).trans (hostRead_keepsDmem _ _ _))
    · exact nextHas_next ((popHost_keepsDmem s).trans (hostWrite_keepsDmem _ _ _ _))
    · exact nextHas_next (keepsDmem_of_eq rfl rfl)
    · exact nextHas_next (popHost_keepsDmem s)

theorem step_keepsDmem (s : State) : NextHas (KeepsDmem s) (step s) := by
  unfold step
  split
  · split
    · exact stepIdle_keepsDmem s
    · exact stepBusy_keepsDmem s
    · exact stepFault_keepsDmem s
  · rintro t ⟨⟩

/-- Settles O13: every step keeps DMEM by `step_keepsDmem`, whatever it is a step of. -/
theorem dmemInvariantIsKept : Obligations.DmemInvariantIsKept :=
  fun s t hc hi ht => (step_keepsDmem s t ht).invariant hc hi

end Sys2Proof.Machine
end

section
/-! PROOFS. A command neither reads nor writes the host's side of the state (20_memory.md R93, R96), so a DMEM access of the
host that waits in `BUSY` makes no difference to it. -/

namespace Sys2Proof.Machine

/-- The state with another list of the host's transactions and another value last read. -/
def State.withHost (l : List HostTx) (d : BitVec 64) (s : State) : State := { s with host := l, hostData := d }

theorem State.withHost_self (s : State) : s.withHost s.host s.hostData = s := rfl

/-- An outcome with its next state, if it has one, changed. -/
def mapNext (g : State → State) : Host.Outcome State Fault Refusal → Host.Outcome State Fault Refusal
  | .next t => .next (g t)
  | .fault r => .fault r
  | .refused r => .refused r

@[simp] theorem mapNext_next (g : State → State) (t : State) : mapNext g (.next t) = .next (g t) := rfl

/-- An operation on the state that neither reads nor writes the host's side: it commutes with every change of it. -/
def HostBlind (g : State → Host.Outcome State Fault Refusal) : Prop :=
  ∀ (l : List HostTx) (d : BitVec 64) (s : State), mapNext (State.withHost l d) (g s) = g (s.withHost l d)

/-- The host's side is left as it was: the change to what it already is shows it. -/
theorem HostBlind.host_eq {g : State → Host.Outcome State Fault Refusal} (hg : HostBlind g) {s t : State}
    (h : g s = .next t) : t.host = s.host ∧ t.hostData = s.hostData := by
  have hself : mapNext (State.withHost s.host s.hostData) (g s) = g s := hg s.host s.hostData s
  rw [h, mapNext_next, Host.Outcome.next.injEq] at hself
  exact ⟨(congrArg State.host hself).symm, (congrArg State.hostData hself).symm⟩

/-- Checks and fault entry do not touch the host's side. -/
theorem mapNext_checked (l : List HostTx) (d : BitVec 64) (s u : State) (c : Option Raised) :
    mapNext (State.withHost l d) (s.checked c u) = (s.withHost l d).checked c (u.withHost l d) := by
  cases c with
  | none => rfl
  | some e => rfl

theorem foldl_withHost {α : Type} (l : List HostTx) (d : BitVec 64) (g : State → α → State) (ps : List α) (s : State)
    (h : ∀ u p, (g u p).withHost l d = g (u.withHost l d) p) :
    (ps.foldl g s).withHost l d = ps.foldl g (s.withHost l d) := by
  induction ps generalizing s with
  | nil => rfl
  | cons p ps ih => rw [List.foldl_cons, List.foldl_cons, ih, h]

/-- A multi-channel form: an update for each channel of a table, after the checks. -/
theorem mapNext_checked_foldl {α : Type} (l : List HostTx) (d : BitVec 64) (s : State) (c : Option Raised)
    (g : State → α → State) (ps : List α) (h : ∀ u p, (g u p).withHost l d = g (u.withHost l d) p) :
    mapNext (State.withHost l d) (s.checked c (ps.foldl g s)) =
      (s.withHost l d).checked c (ps.foldl g (s.withHost l d)) := by
  rw [mapNext_checked, foldl_withHost l d g ps s h]

theorem svfReset_hostBlind (xa : XReg) : HostBlind (execSvfReset xa) := fun l d s =>
  have hfold := foldl_withHost l d (fun u c => u.setSvf c (svfZero s.fmt)) (channels s.build) s fun _ _ => rfl
  congrArg (fun u : State => Host.Outcome.next ({ u with svf := ⟨zero s.fmt, zero s.fmt, s.getX xa⟩ } : State)) hfold

theorem svfSetc_hostBlind (rd : RReg) (xa xb : XReg) : HostBlind (execSvfSetc rd xa xb) := fun l d _ =>
  apply_ite (mapNext (State.withHost l d)) _ _ _

/-- No command reads or writes the host's side: the groups end without a check, with one, and with one
before the channels of a table. -/
theorem exec_hostBlind (i : Instr) : HostBlind (exec i) := by
  intro l d s
  cases i with
  | nop | setr | setrh | addri | mov | sinRef | sinFast | sinFaster | cosRef | cosFast | cosFaster | tanRef | tanFast
  | tanFaster | tanhRef | tanhFast | log2Ref | log2Fast | log2Bit | sqrtRef | sqrtFast | fmin | fmax | clip | within
  | const | bqLpN | bqLpCs | bqLpD | bqHpN | bqHpCs | bqHpD | bqBpN | bqBpCs | bqBpD | bqBrN | bqBrCs | bqBrD | bqApN
  | bqApCs | bqApD | svfSetu => rfl
  | ld | st | mfc | polyHorner | polyFma2 | polyEstrin | polyRat | bqProc | bqBuf | bqOpt | bqOpt2 | svfProcHp
  | svfProcBp | svfProcLp | svfFrame | svfBufHp | svfBufBp | svfBufLp => exact mapNext_checked l d s _ _
  | svfReset xa => exact svfReset_hostBlind xa l d s
  | svfSetc rd xa xb => exact svfSetc_hostBlind rd xa xb l d s
  | bqMbuf | bqMopt | bqMopt2 | svfMbufHp | svfMbufBp | svfMbufLp =>
    exact mapNext_checked_foldl l d s _ _ _ fun _ _ => rfl

theorem runCommand_of_ok {s : State} {i : Instr} (h : decode s.cmd = .ok i) :
    runCommand s = exec i { s with run := .idle } := by
  rw [runCommand, h]

theorem runCommand_of_error {s : State} {e : Illegal} (h : decode s.cmd = .error e) :
    runCommand s = .next (({ s with run := .idle } : State).raise ⟨.illegal, 0⟩) := by
  rw [runCommand, h]

theorem runCommand_hostBlind : HostBlind runCommand := by
  intro l d s
  cases h : decode s.cmd with
  | ok i =>
    rw [runCommand_of_ok h, runCommand_of_ok (s := s.withHost l d) h]
    exact exec_hostBlind i l d _
  | error e =>
    rw [runCommand_of_error h, runCommand_of_error (s := s.withHost l d) h]
    rfl

/-! ## A step in `BUSY` -/

theorem step_busy {s : State} (hb : buildLegal s.build = true) (hr : s.run = .busy) : step s = stepBusy s := by
  simp [step, hb, hr]

theorem buildLegal_of_step {s t : State} (h : step s = .next t) : buildLegal s.build = true := by
  unfold step at h
  split at h
  · assumption
  · cases h

/-- A DMEM access of the host does not keep the command from running. -/
theorem stepBusy_of_access {s : State} {q : HostTx} {rest : List HostTx} (hh : s.host = q :: rest)
    (hq : ∃ a n, q = .read a n ∨ ∃ v, q = .write a n v) : stepBusy s = runCommand s := by
  obtain ⟨a, n, rfl | ⟨v, rfl⟩⟩ := hq
  · rw [stepBusy, hh]
  · rw [stepBusy, hh]

/-- Settles O21: both steps run the command, which is blind to the host's list. -/
theorem hostAccessWaitsWhileBusy : Obligations.HostAccessWaitsWhileBusy := by
  intro s t q rest hr hh hq ht
  have hb := buildLegal_of_step ht
  have hrun : runCommand s = .next t := by rw [← stepBusy_of_access hh hq, ← step_busy hb hr, ht]
  obtain ⟨hhost, hdata⟩ := runCommand_hostBlind.host_eq hrun
  refine ⟨hhost, hdata, ?_⟩
  have hempty : step { s with host := [] } = runCommand (s.withHost [] s.hostData) := step_busy hb hr
  rw [hempty, ← runCommand_hostBlind, hrun, mapNext_next, ← hdata]
  rfl

end Sys2Proof.Machine
end

section
/-! PROOFS. The region checks of the commands (20_memory.md R88; 60_exceptions.md R315 to R317, R319): the first check that fails,
in the order a command lists them, is the fault the command ends with. -/

namespace Sys2Proof.Machine

/-! ## From a check to a fault -/

/-- A command faults on a region of `len` bytes at `base`: on its alignment, and when that is right on its range (R88). -/
def RegionFaults (i : Instr) (s : State) (base : Word) (len align : Nat) : Prop :=
  (base.toNat % align ≠ 0 → FaultsWith i s 4 base) ∧
    (base.toNat % align = 0 → s.build.memBytes < base.toNat + len → FaultsWith i s 5 base)

theorem faultsWith_of_checked {i : Instr} {s u : State} {c : Option Raised} {e : Raised}
    (hx : exec i s = s.checked c u) (hc : c = some e) : FaultsWith i s (causeCode e.cause) e.info := by
  subst hc
  exact hx

/-- A region check that decides what the checks of a command raise makes the command fault on that region. -/
theorem regionFaults_of_checked {i : Instr} {s u : State} {c : Option Raised} {base : Word} {count size align : Nat}
    (hx : exec i s = s.checked c u) (hn : count ≠ 0)
    (hc : ∀ e, checkRegion s.build base count size align = some e → c = some e) :
    RegionFaults i s base (count * size) align :=
  ⟨fun ha => faultsWith_of_checked hx (hc _ (checkRegion_align _ _ _ _ _ hn ha)),
    fun ha hr => faultsWith_of_checked hx (hc _ (checkRegion_access _ _ _ _ _ hn ha hr))⟩

/-- The check after those that pass decides (R319). -/
theorem firstRaised_of_pass {pre post : List (Option Raised)} {c : Option Raised} {e : Raised}
    (hpre : ∀ d ∈ pre, d = none) (hc : c = some e) : firstRaised (pre ++ c :: post) = some e := by
  rw [firstRaised_append pre _ hpre, hc, firstRaised_some]

/-- A command that checks a region after checks that pass faults on that region. -/
theorem regionFaults_of_pass {i : Instr} {s u : State} {base : Word} {count size align : Nat}
    (pre post : List (Option Raised))
    (hx : exec i s = s.checked (firstRaised (pre ++ checkRegion s.build base count size align :: post)) u)
    (hpre : ∀ d ∈ pre, d = none) (hn : count ≠ 0) : RegionFaults i s base (count * size) align :=
  regionFaults_of_checked hx hn fun _ he => firstRaised_of_pass hpre he

/-! ## LD, ST and the POLY commands -/

theorem ld_regionFaults (s : State) (x : XReg) (ra : RReg) (imm : BitVec 16) :
    RegionFaults (.ld x ra imm) s (s.addOffset ra imm) (1 * eb s.fmt) (eb s.fmt) :=
  regionFaults_of_checked rfl Nat.one_ne_zero fun _ he => he

theorem st_regionFaults (s : State) (x : XReg) (ra : RReg) (imm : BitVec 16) :
    RegionFaults (.st x ra imm) s (s.addOffset ra imm) (1 * eb s.fmt) (eb s.fmt) :=
  regionFaults_of_checked rfl Nat.one_ne_zero fun _ he => he

section Poly

variable (s : State) (xd xa : XReg) (rb rc : RReg) (n : BitVec 8) (hn : n.toNat ≠ 0)

theorem polyFma2_regionFaults : RegionFaults (.polyFma2 xd xa rb) s (s.getR rb) (2 * eb s.fmt) (eb s.fmt) :=
  regionFaults_of_checked rfl two_ne_zero fun _ he => he

include hn

theorem polyHorner_regionFaults :
    RegionFaults (.polyHorner xd xa rb n) s (s.getR rb) (n.toNat * eb s.fmt) (eb s.fmt) :=
  regionFaults_of_checked rfl hn fun _ he => he

theorem polyEstrin_regionFaults :
    RegionFaults (.polyEstrin xd xa rb n) s (s.getR rb) (n.toNat * eb s.fmt) (eb s.fmt) :=
  regionFaults_of_checked rfl hn fun _ he => he

/-- The numerator's region is checked first. -/
theorem polyRat_regionFaults_num :
    RegionFaults (.polyRat xd xa rb rc n) s (s.getR rb) (n.toNat * eb s.fmt) (eb s.fmt) :=
  regionFaults_of_pass [] [checkElems s.build (s.getR rc) n.toNat] rfl (by simp) hn

/-- The denominator's region is checked when the numerator's passes. -/
theorem polyRat_regionFaults_den (hnum : RegionOk s.build (s.getR rb) n.toNat) :
    RegionFaults (.polyRat xd xa rb rc n) s (s.getR rc) (n.toNat * eb s.fmt) (eb s.fmt) :=
  regionFaults_of_pass [checkElems s.build (s.getR rb) n.toNat] [] rfl (by simpa [checkElems_eq_none] using hnum) hn

end Poly

/-- Settles O33, from the region of each command. -/
theorem elementRegionFaults : Obligations.ElementRegionFaults := by
  intro s x xd xa ra rb rc imm n hn0
  have hn : n.toNat ≠ 0 := fun h => hn0 (BitVec.eq_of_toNat_eq h)
  exact ⟨ld_regionFaults s x ra imm, st_regionFaults s x ra imm, polyHorner_regionFaults s xd xa rb n hn,
    polyFma2_regionFaults s xd xa rb, polyEstrin_regionFaults s xd xa rb n hn,
    polyRat_regionFaults_num s xd xa rb rc n hn, polyRat_regionFaults_den s xd xa rb rc n hn⟩

/-! ## The buffer commands with one channel -/

section Buffers

variable (s : State) (rd ra rb : RReg) (xa : XReg) (c : Chan) (hc : c.val < s.build.nch)

include hc

theorem bqBuf_regionFaults (hn : 0 < (s.getR rb).toNat) :
    RegionFaults (.bqBuf ra rb c) s (s.getR ra) ((s.getR rb).toNat * eb s.fmt) (eb s.fmt) :=
  regionFaults_of_pass [checkChannel s.build c] [] rfl (by simpa [checkChannel_eq_none] using hc) hn.ne'

/-- The three forms of SVF.BUF, each told by what its execution is. -/
theorem svfBuf_regionFaults {i : Instr} {o : SvfOut} (hi : exec i s = s.svfBufCmd o ra rb c)
    (hn : 0 < (s.getR rb).toNat) : RegionFaults i s (s.getR ra) ((s.getR rb).toNat * eb s.fmt) (eb s.fmt) :=
  regionFaults_of_pass [checkChannel s.build c] [] hi (by simpa [checkChannel_eq_none] using hc) hn.ne'

theorem svfFrame_regionFaults : RegionFaults (.svfFrame rd xa c) s (s.getR rd) (3 * eb s.fmt) (eb s.fmt) :=
  regionFaults_of_pass [checkChannel s.build c] [] rfl (by simpa [checkChannel_eq_none] using hc) three_ne_zero

variable (hn : 2 ≤ (s.getR rb).toNat)

include hn

/-- The checks of the optimized forms that stand before every region. -/
theorem channel_and_count_pass : ∀ d ∈ [checkChannel s.build c, checkCount (s.getR rb)], d = none := by
  simp [checkChannel_eq_none, checkCount_eq_none, hc, hn]

theorem bqOpt_regionFaults :
    RegionFaults (.bqOpt ra rb c) s (s.getR ra) ((s.getR rb).toNat * eb s.fmt) (eb s.fmt) :=
  regionFaults_of_pass [checkChannel s.build c, checkCount (s.getR rb)] [] rfl (channel_and_count_pass s rb c hc hn)
    (by omega)

/-- The input region of BQ.OPT2 is checked first. -/
theorem bqOpt2_regionFaults_inp :
    RegionFaults (.bqOpt2 rd ra rb c) s (s.getR ra) ((s.getR rb).toNat * eb s.fmt) (eb s.fmt) :=
  regionFaults_of_pass [checkChannel s.build c, checkCount (s.getR rb)] _ rfl (channel_and_count_pass s rb c hc hn)
    (by omega)

variable (hinp : RegionOk s.build (s.getR ra) (s.getR rb).toNat)

include hinp

/-- The output region of BQ.OPT2 is checked when the input region passes. -/
theorem bqOpt2_regionFaults_out :
    RegionFaults (.bqOpt2 rd ra rb c) s (s.getR rd) ((s.getR rb).toNat * eb s.fmt) (eb s.fmt) :=
  regionFaults_of_pass
    [checkChannel s.build c, checkCount (s.getR rb), checkElems s.build (s.getR ra) (s.getR rb).toNat] _ rfl
    (by simp [checkChannel_eq_none, checkCount_eq_none, checkElems_eq_none, hc, hn, hinp]) (by omega)

/-- The overlap is checked when both regions pass (R317). -/
theorem bqOpt2_overlapFault (hout : RegionOk s.build (s.getR rd) (s.getR rb).toNat)
    (ho : ¬Disjoint2 (s.getR ra) (s.getR rd) ((s.getR rb).toNat * eb s.fmt)) :
    FaultsWith (.bqOpt2 rd ra rb c) s 6 (s.getR rd) := by
  have hfirst : firstRaised [checkChannel s.build c, checkCount (s.getR rb),
      checkElems s.build (s.getR ra) (s.getR rb).toNat, checkElems s.build (s.getR rd) (s.getR rb).toNat,
      checkOverlap (s.getR ra) (s.getR rd) ((s.getR rb).toNat * eb s.fmt)] = some ⟨.overlap, s.getR rd⟩ := by
    simp only [(checkChannel_eq_none _ _).2 hc, (checkCount_eq_none _).2 hn, (checkElems_eq_none _ _ _).2 hinp,
      (checkElems_eq_none _ _ _).2 hout, checkOverlap_of_not _ _ _ ho, firstRaised_none, firstRaised_some]
  exact faultsWith_of_checked rfl hfirst

end Buffers

/-! ## The pointer tables of the multi-channel commands -/

section Tables

variable (s : State) (rd ra rb : RReg) (h0 : s.build.nch ≠ 0)

include h0

theorem bqMbuf_tableFaults : RegionFaults (.bqMbuf ra rb) s (s.getR ra) (s.build.nch * 4) 4 :=
  regionFaults_of_pass [] _ rfl (by simp) h0

/-- The three forms of SVF.MBUF, each told by what its execution is. -/
theorem svfMbuf_tableFaults {i : Instr} {o : SvfOut} (hi : exec i s = s.svfMbufCmd o ra rb) :
    RegionFaults i s (s.getR ra) (s.build.nch * 4) 4 :=
  regionFaults_of_pass [] _ hi (by simp) h0

variable (hn : 2 ≤ (s.getR rb).toNat)

include hn

theorem bqMopt_tableFaults : RegionFaults (.bqMopt ra rb) s (s.getR ra) (s.build.nch * 4) 4 :=
  regionFaults_of_pass [checkCount (s.getR rb)] _ rfl (by simpa [checkCount_eq_none] using hn) h0

/-- The input table of BQ.MOPT2 is checked first. -/
theorem bqMopt2_tableFaults_inp : RegionFaults (.bqMopt2 rd ra rb) s (s.getR ra) (s.build.nch * 4) 4 :=
  regionFaults_of_pass [checkCount (s.getR rb)] _ rfl (by simpa [checkCount_eq_none] using hn) h0

end Tables

/-- Settles O58, from the regions of each command and the overlap of BQ.OPT2. -/
theorem bufferRegionFaults : Obligations.BufferRegionFaults := by
  intro s rd ra rb xa c hc
  have h0 : s.build.nch ≠ 0 := by omega
  exact ⟨fun hn => ⟨bqBuf_regionFaults s ra rb c hc hn, svfBuf_regionFaults s ra rb c hc (o := .hp) rfl hn,
      svfBuf_regionFaults s ra rb c hc (o := .bp) rfl hn, svfBuf_regionFaults s ra rb c hc (o := .lp) rfl hn⟩,
    svfFrame_regionFaults s rd xa c hc, bqMbuf_tableFaults s ra rb h0, svfMbuf_tableFaults s ra rb h0 (o := .hp) rfl,
    svfMbuf_tableFaults s ra rb h0 (o := .bp) rfl, svfMbuf_tableFaults s ra rb h0 (o := .lp) rfl,
    fun hn => ⟨bqOpt_regionFaults s ra rb c hc hn, bqOpt2_regionFaults_inp s rd ra rb c hc hn,
      bqMopt_tableFaults s ra rb h0 hn, bqMopt2_tableFaults_inp s rd ra rb h0 hn,
      fun hinp => ⟨bqOpt2_regionFaults_out s rd ra rb c hc hn hinp, bqOpt2_overlapFault s rd ra rb c hc hn hinp⟩⟩⟩

end Sys2Proof.Machine
end

section
/-! PROOFS. The commands that write one register (42_approximation.md R180, R186 to R214): each is its function of the operands
written to its destination. What the functions are: the reference functions on special operands (R182), the fast variants as
quotients of Horner sums, the selections and the constants. -/

namespace Sys2Proof.Machine

-- One proof at a time, as in the tests: proofs elaborated in parallel each reserve a thread's stack.
set_option Elab.async false

/-! ## One register written -/

theorem setsX_of_exec {i : Instr} {s : State} {d : XReg} {v : Pat} (h : exec i s = .next (s.setX d v)) : SetsX i s d v :=
  ⟨_, h, rfl, fun _ hj => s.getX_setX_other v hj, s.getX_setX_same d v⟩

theorem setsR_of_exec {i : Instr} {s : State} {d : RReg} {v : Word} (h : exec i s = .next (s.setR d v)) : SetsR i s d v :=
  ⟨_, h, rfl, fun _ hj => s.getR_setR_other v hj, s.getR_setR_same d v⟩

/-! ## Constants (R214, R215) -/

theorem const_setsX (s : State) (xd : XReg) (k : ConstSel) : SetsX (.const xd k) s xd (constValue s.fmt k) :=
  setsX_of_exec rfl

/-- Settles O40: CONST leaves `constValue` of the format, which is the table of R215. -/
theorem constantPatterns : Obligations.ConstantPatterns := by
  intro s xd
  have hconst := const_setsX s xd
  constructor
  · intro hf
    rw [hf] at hconst
    exact ⟨hconst .pi, hconst .twoPi, hconst .halfPi, hconst .negHalfPi, hconst .e, hconst .sqrt2⟩
  · intro hf
    rw [hf] at hconst
    exact ⟨hconst .pi, hconst .twoPi, hconst .halfPi, hconst .negHalfPi, hconst .e, hconst .sqrt2⟩

/-! ## Selections (R210 to R213) -/

theorem boolWord_withinTest (f : Fmt) (v lo hi : Pat) :
    boolWord (withinTest f v lo hi) = if fle f lo v = true ∧ fle f v hi = true then 1 else 0 := by
  simp only [boolWord, withinTest, Bool.and_eq_true]

/-- Settles O39: each command writes its selection, `minSel`, `maxSel`, `clipSel` or the word of `withinTest`. -/
theorem selectionResults : Obligations.SelectionResults := by
  intro s xd xa xb xc rd
  refine ⟨setsX_of_exec rfl, setsX_of_exec rfl, setsX_of_exec rfl, ?_⟩
  rw [← boolWord_withinTest]
  exact setsR_of_exec rfl

/-! ## Reference functions on special operands (R182) -/

theorem refApply_nearest {b : Build} (h : b.refs = .nearest) (fn : RefFn) (x : Pat) :
    refApply b fn x = nearestRef fn b.fmt x := by
  rw [refApply, h]

theorem nearestRef_of_isNan (fn : RefFn) {f : Fmt} {x : Pat} (h : isNan f x = true) : nearestRef fn f x = cnan f := by
  unfold nearestRef
  rw [unpack_of_isNan f x h]

theorem nearestRef_pack_zero (f : Fmt) (n : Bool) :
    nearestRef .sin f (pack f n 0) = pack f n 0 ∧ nearestRef .tan f (pack f n 0) = pack f n 0 ∧
      nearestRef .tanh f (pack f n 0) = pack f n 0 ∧ nearestRef .cos f (pack f n 0) = one f ∧
      nearestRef .log2 f (pack f n 0) = infPat f true := by
  simp only [nearestRef, unpack_pack_zero, if_true, and_self]

theorem pack_magOf_one (f : Fmt) (n : Bool) :
    pack f n (magOf f (one f)) = if n then fneg f (one f) else one f := by
  cases f <;> cases n <;> decide

theorem nearestRef_infPat (f : Fmt) (n : Bool) :
    nearestRef .sin f (infPat f n) = cnan f ∧ nearestRef .cos f (infPat f n) = cnan f ∧
      nearestRef .tan f (infPat f n) = cnan f ∧
      nearestRef .tanh f (infPat f n) = (if n then fneg f (one f) else one f) ∧
      nearestRef .log2 f (infPat f n) = (if n then cnan f else infPat f false) := by
  simp only [nearestRef, unpack_infPat, pack_magOf_one, and_self]

theorem nearestRef_log2_of_neg {f : Fmt} {x : Pat} {r : ℚ} (hx : realOf f x = some r) (hr : r < 0) :
    nearestRef .log2 f x = cnan f := by
  obtain ⟨n, m, e, hu, rfl⟩ := unpack_of_realOf f x r hx
  have hneg : (signed n m : ℚ) < 0 := neg_of_mul_neg_left hr (by positivity)
  cases n
  · simp [signed] at hneg; linarith [(Nat.cast_nonneg m : (0 : ℚ) ≤ m)]
  · have hm : m ≠ 0 := by rintro rfl; simp [signed] at hneg
    simp only [nearestRef, hu, if_neg hm, if_true]

theorem artanhFixed_zero (w den : ℕ) : artanhFixed w 0 den = 0 := by
  simp [artanhFixed, artanhSum]

/-- The logarithm of a power of two whose exponents cancel is exact. -/
theorem log2Fixed_one (f : Fmt) (k : ℕ) : log2Fixed f (2 ^ k) (-k) = pack f false 0 := by
  simp only [log2Fixed, fromFixed, Nat.log2_two_pow, Nat.sub_self, artanhFixed_zero, Nat.zero_div,
    neg_add_cancel, zero_mul, Nat.cast_zero, add_zero, Int.natAbs_zero, lt_irrefl, decide_false, roundPat_zero]

theorem unpack_one (f : Fmt) : unpack f (one f) = .fin false (2 ^ fracBits f) (-(fracBits f : ℤ)) := by
  cases f <;> rfl

theorem nearestRef_log2_one (f : Fmt) : nearestRef .log2 f (one f) = zero f := by
  have hm : 2 ^ fracBits f ≠ 0 := by positivity
  simp only [nearestRef, unpack_one, if_neg hm, Bool.false_eq_true, if_false, log2Fixed_one]
  rfl

/-- Settles O35: each variant writes its function of `x[a]`; the special operands by their unpacked form, and `log2` of 1.0
by its exact fixed-point sum. -/
theorem referenceVariantResults : Obligations.ReferenceVariantResults := by
  refine ⟨fun s xd xa => ⟨setsX_of_exec rfl, setsX_of_exec rfl, setsX_of_exec rfl, setsX_of_exec rfl, setsX_of_exec rfl,
    setsX_of_exec rfl⟩, fun b hb => ?_⟩
  simp only [refApply_nearest hb]
  exact ⟨fun fn x => nearestRef_of_isNan fn, nearestRef_pack_zero b.fmt, nearestRef_infPat b.fmt,
    fun x r => nearestRef_log2_of_neg, nearestRef_log2_one b.fmt⟩

/-! ## Fast variants (R185, R187 to R203) -/

/-- The body of COSRED by the side of `±PI` on which the remainder by `TWO_PI` lies (R190). -/
theorem cosRed_cases (f : Fmt) (x : Pat) :
    (flt f (piC f) (ffmod f x (twoPiC f)) = true →
      cosRed f x = fsub f (halfPiC f) (fabs f (fsub f (ffmod f x (twoPiC f)) (twoPiC f)))) ∧
    (flt f (piC f) (ffmod f x (twoPiC f)) = false → flt f (ffmod f x (twoPiC f)) (fneg f (piC f)) = true →
      cosRed f x = fsub f (halfPiC f) (fabs f (fadd f (ffmod f x (twoPiC f)) (twoPiC f)))) ∧
    (flt f (piC f) (ffmod f x (twoPiC f)) = false → flt f (ffmod f x (twoPiC f)) (fneg f (piC f)) = false →
      cosRed f x = fsub f (halfPiC f) (fabs f (ffmod f x (twoPiC f)))) := by
  refine ⟨fun hhi => ?_, fun hhi hlo => ?_, fun hhi hlo => ?_⟩
  · simp only [cosRed, hhi, if_true]
  · simp only [cosRed, hhi, hlo, Bool.false_eq_true, if_false, if_true]
  · simp only [cosRed, hhi, hlo, Bool.false_eq_true, if_false]

/-- Settles O36: each variant writes `fastEval` of its table, and COSRED is read off its three cases in either format. -/
theorem fastVariantResults : Obligations.FastVariantResults := by
  refine ⟨fun s xd xa => ⟨setsX_of_exec rfl, setsX_of_exec rfl, setsX_of_exec rfl, setsX_of_exec rfl, setsX_of_exec rfl,
    setsX_of_exec rfl, setsX_of_exec rfl, setsX_of_exec rfl, setsX_of_exec rfl⟩, fun f x => ?_⟩
  cases f
  · exact cosRed_cases .b32 x
  · exact cosRed_cases .b64 x

end Sys2Proof.Machine
end

section
/-! PROOFS. COSRED brings a finite operand into `[HALF_PI - PI, HALF_PI]` (42_approximation.md R190): the three constants are in
the ratio 1 : 2 : 4 exactly, the remainder is exact, and a rounded result does not pass a value of the format. -/

namespace Sys2Proof.Machine

-- One proof at a time, as in the tests: proofs elaborated in parallel each reserve a thread's stack.
set_option Elab.async false

/-! ## Finite values and their order (00_scope.md R8, R13) -/

theorem isFinite_eq_true_iff (f : Fmt) (v : Pat) : isFinite f v = true ↔ ∃ z, realOf f v = some z := by
  simp only [isFinite, decide_eq_true_eq, realOf_eq_some_iff]
  exact ⟨fun h => ⟨_, h, rfl⟩, fun ⟨_, h, _⟩ => h⟩

theorem isNan_of_realOf {f : Fmt} {v : Pat} {z : ℚ} (h : realOf f v = some z) : isNan f v = false :=
  decide_eq_false (not_lt.2 ((realOf_eq_some_iff f v z).1 h).1.le)

theorem orderOf_of_realOf {f : Fmt} {v : Pat} {z : ℚ} (h : realOf f v = some z) :
    orderOf f v = some ((z : WithTop ℚ) : WithBot (WithTop ℚ)) := by
  obtain ⟨n, m, e, hu, rfl⟩ := unpack_of_realOf f v z h
  rw [orderOf, hu]

theorem flt_iff_of_realOf {f : Fmt} {a b : Pat} {x y : ℚ} (ha : realOf f a = some x) (hb : realOf f b = some y) :
    flt f a b = true ↔ x < y := by
  simp only [flt_iff_orderOf, orderOf_of_realOf ha, orderOf_of_realOf hb, Option.some.injEq, exists_and_left,
    exists_eq_left', WithBot.coe_lt_coe, WithTop.coe_lt_coe]

theorem fle_iff_of_realOf {f : Fmt} {a b : Pat} {x y : ℚ} (ha : realOf f a = some x) (hb : realOf f b = some y) :
    fle f a b = true ↔ x ≤ y := by
  simp only [fle_iff_orderOf, orderOf_of_realOf ha, orderOf_of_realOf hb, Option.some.injEq, exists_and_left,
    exists_eq_left', WithBot.coe_le_coe, WithTop.coe_le_coe]

theorem realOf_fneg {f : Fmt} {a : Pat} {x : ℚ} (h : realOf f a = some x) : realOf f (fneg f a) = some (-x) := by
  rw [fneg, isNan_of_realOf h]
  exact realOf_flipSign h

theorem abs_signed_mul (n : Bool) (m : ℕ) (e : ℤ) : |(signed n m : ℚ) * 2 ^ e| = m * 2 ^ e := by
  rw [abs_mul, abs_of_pos (by positivity : (0 : ℚ) < 2 ^ e)]
  cases n <;> simp [signed]

theorem realOf_fabs {f : Fmt} {a : Pat} {x : ℚ} (h : realOf f a = some x) : realOf f (fabs f a) = some |x| := by
  obtain ⟨hlt, rfl⟩ := (realOf_eq_some_iff f a x).1 h
  rw [fabs, isNan_of_realOf h, if_neg Bool.false_ne_true, realOf_pack f false _ hlt, abs_signed_mul]
  simp [signed]

/-! ## A rounded result stays between values of the format (R9) -/

theorem abs_realOf_lt_overflowBound {f : Fmt} {v : Pat} {z : ℚ} (h : realOf f v = some z) : |z| < overflowBound f := by
  obtain ⟨hlt, rfl⟩ := (realOf_eq_some_iff f v z).1 h
  have hle : (magInt f (magOf f v) : ℚ) ≤ magInt f (infMag f - 1) := by
    exact_mod_cast (magInt_strictMono f).monotone (Nat.le_sub_one_of_lt hlt)
  have hstep : (magInt f (infMag f - 1) : ℚ) < magInt f (infMag f) := by
    exact_mod_cast magInt_strictMono f (Nat.sub_lt (infMag_pos f) one_pos)
  rw [abs_signed_mul, overflowBound_eq]
  exact mul_lt_mul_of_pos_right (by linarith) (by positivity)

theorem RoundsTo.between {f : Fmt} {lo hi v : Pat} {x y r : ℚ} (hv : RoundsTo f (r : ℝ) v) (hlo : realOf f lo = some x)
    (hhi : realOf f hi = some y) (hxr : x ≤ r) (hry : r ≤ y) : ∃ z, realOf f v = some z ∧ x ≤ z ∧ z ≤ y := by
  obtain ⟨-, hnear, -, -⟩ := hv
  have hbound : |r| < overflowBound f :=
    (abs_le_max_abs_abs hxr hry).trans_lt
      (max_lt (abs_realOf_lt_overflowBound hlo) (abs_realOf_lt_overflowBound hhi))
  obtain ⟨z, hz, hleast⟩ := hnear (by exact_mod_cast hbound)
  have hzlo : |z - r| ≤ |x - r| := by exact_mod_cast (hleast lo x hlo).1
  have hzhi : |z - r| ≤ |y - r| := by exact_mod_cast (hleast hi y hhi).1
  rw [abs_of_nonpos (sub_nonpos.2 hxr)] at hzlo
  rw [abs_of_nonneg (sub_nonneg.2 hry)] at hzhi
  exact ⟨z, hz, by linarith [neg_abs_le (z - r)], by linarith [le_abs_self (z - r)]⟩

/-! ## The reduction (42_approximation.md R190) -/

/-- The three constants of one format have one significand and consecutive exponents. -/
theorem unpack_pi_constants (f : Fmt) : ∃ m e, 0 < m ∧ unpack f (halfPiC f) = .fin false m e ∧
    unpack f (piC f) = .fin false m (e + 1) ∧ unpack f (twoPiC f) = .fin false m (e + 2) := by
  cases f
  · exact ⟨13176795, -23, by decide, rfl, rfl, rfl⟩
  · exact ⟨7074237752028440, -52, by decide, rfl, rfl, rfl⟩

theorem realOf_pi_constants (f : Fmt) : ∃ h : ℚ, 0 < h ∧
    realOf f (halfPiC f) = some h ∧ realOf f (piC f) = some (2 * h) ∧ realOf f (twoPiC f) = some (4 * h) := by
  obtain ⟨m, e, hm, hhalf, hpi, htwo⟩ := unpack_pi_constants f
  have hpos : (0 : ℚ) < m := by exact_mod_cast hm
  have hone : (2 : ℚ) ^ (e + 1) = 2 ^ e * 2 := zpow_add_one₀ two_ne_zero e
  have htwice : (2 : ℚ) ^ (e + 2) = 2 ^ e * 4 := by rw [zpow_add₀ two_ne_zero]; norm_num
  refine ⟨m * 2 ^ e, by positivity, ?_, ?_, ?_⟩
  · simp only [realOf, hhalf, signed, Bool.false_eq_true, if_false, Int.cast_natCast]
  · simp only [realOf, hpi, hone, signed, Bool.false_eq_true, if_false, Int.cast_natCast, Option.some.injEq]
    ring
  · simp only [realOf, htwo, htwice, signed, Bool.false_eq_true, if_false, Int.cast_natCast, Option.some.injEq]
    ring

theorem abs_sub_truncate_mul_lt (x : ℚ) {y : ℚ} (hy : 0 < y) : |x - (truncate (x / y) : ℚ) * y| < y := by
  have hfrac : |x / y - truncate (x / y)| < 1 := by
    unfold truncate
    split
    · rw [abs_lt]
      exact ⟨by linarith [Int.floor_le (x / y)], by linarith [Int.lt_floor_add_one (x / y)]⟩
    · rw [abs_lt]
      exact ⟨by linarith [Int.ceil_lt_add_one (x / y)], by linarith [Int.le_ceil (x / y)]⟩
  have hscale : x - (truncate (x / y) : ℚ) * y = (x / y - truncate (x / y)) * y := by
    rw [sub_mul, div_mul_cancel₀ x hy.ne']
  rw [hscale, abs_mul, abs_of_pos hy]
  exact mul_lt_of_lt_one_left hy hfrac

/-- The last step of COSRED on an angle of at most `PI`: both ends of the interval are values of the format, the lower one
with the exact difference `HALF_PI - PI`. -/
theorem halfPi_sub_fabs_in_range {f : Fmt} {t : Pat} {h a : ℚ} (hh : realOf f (halfPiC f) = some h)
    (hp : realOf f (piC f) = some (2 * h)) (ht : realOf f t = some a) (ha : |a| ≤ 2 * h) :
    isFinite f (fsub f (halfPiC f) (fabs f t)) = true ∧
      fle f (fsub f (halfPiC f) (piC f)) (fsub f (halfPiC f) (fabs f t)) = true ∧
      fle f (fsub f (halfPiC f) (fabs f t)) (halfPiC f) = true := by
  have hlow := realOf_fneg hh
  obtain ⟨u, hu, hu1, hu2⟩ := (roundsTo_fsub hh (realOf_fabs ht)).between hlow hh (by linarith)
    (by linarith [abs_nonneg a])
  obtain ⟨w, hw, -, hw2⟩ := (roundsTo_fsub hh hp).between hlow hlow (by linarith) (by linarith)
  exact ⟨(isFinite_eq_true_iff f _).2 ⟨u, hu⟩, (fle_iff_of_realOf hw hu).2 (by linarith),
    (fle_iff_of_realOf hu hh).2 hu2⟩

/-- The angle COSRED takes the magnitude of is at most `PI`, whichever side of `±PI` the remainder lies on. -/
theorem cosRed_of_isFinite {f : Fmt} {x : Pat} (hx : isFinite f x = true) :
    ∃ h t a, realOf f (halfPiC f) = some h ∧ realOf f (piC f) = some (2 * h) ∧ realOf f t = some a ∧ |a| ≤ 2 * h ∧
      cosRed f x = fsub f (halfPiC f) (fabs f t) := by
  obtain ⟨z, hz⟩ := (isFinite_eq_true_iff f x).1 hx
  obtain ⟨h, hpos, hh, hp, ht⟩ := realOf_pi_constants f
  have hnp := realOf_fneg hp
  have hmod := (ffmod_exact hz ht (by linarith)).1
  have hrange := abs_lt.1 (abs_sub_truncate_mul_lt z (y := 4 * h) (by linarith))
  generalize z - (truncate (z / (4 * h)) : ℚ) * (4 * h) = r at hmod hrange
  obtain ⟨habove, hbelow, hmid⟩ := cosRed_cases f x
  have hzero : realOf f (pack f false 0) = some 0 := by
    rw [realOf_pack f false 0 (infMag_pos f)]; simp [signed, magInt_zero]
  have hhi := flt_iff_of_realOf hp hmod
  have hlo := flt_iff_of_realOf hmod hnp
  by_cases h1 : 2 * h < r
  · obtain ⟨a, ha, ha1, ha2⟩ := (roundsTo_fsub hmod ht).between hnp hzero (by linarith) (by linarith)
    exact ⟨h, _, a, hh, hp, ha, abs_le.2 ⟨ha1, by linarith⟩, habove (hhi.2 h1)⟩
  · have hhi' := Bool.eq_false_iff.2 (mt hhi.1 h1)
    by_cases h2 : r < -(2 * h)
    · obtain ⟨a, ha, ha1, ha2⟩ := (roundsTo_fadd hmod ht).between hzero hp (by linarith) (by linarith)
      exact ⟨h, _, a, hh, hp, ha, abs_le.2 ⟨by linarith, ha2⟩, hbelow hhi' (hlo.2 h2)⟩
    · exact ⟨h, _, r, hh, hp, hmod, abs_le.2 ⟨not_lt.1 h2, not_lt.1 h1⟩, hmid hhi' (Bool.eq_false_iff.2 (mt hlo.1 h2))⟩

theorem ffmod_of_not_isFinite {f : Fmt} {x : Pat} (b : Pat) (hx : isFinite f x = false) : ffmod f x b = cnan f := by
  rcases (not_lt.1 (of_decide_eq_false hx) : infMag f ≤ magOf f x).eq_or_lt with heq | hlt
  · exact ffmod_of_inf_left b heq.symm
  · exact ffmod_of_isNan_left b (decide_eq_true hlt)

theorem isNan_cnan (f : Fmt) : isNan f (cnan f) = true := by cases f <;> decide

/-- A NaN passes through COSRED: both comparisons are false and the last subtraction has a NaN operand. -/
theorem cosRed_of_not_isFinite {f : Fmt} {x : Pat} (hx : isFinite f x = false) : cosRed f x = cnan f := by
  have hnan := isNan_cnan f
  have hhi : flt f (piC f) (cnan f) = false := by simp [flt, hnan]
  have hlo : flt f (cnan f) (fneg f (piC f)) = false := by simp [flt, hnan]
  obtain ⟨-, -, hmid⟩ := cosRed_cases f x
  rw [ffmod_of_not_isFinite _ hx] at hmid
  rw [hmid hhi hlo, fabs, if_pos hnan]
  exact fadd_nan_right (isNan_flipSign hnan) _

/-- Settles O37, from the angle of at most `PI` and the last subtraction. -/
theorem cosineReductionBringsIntoRange : Obligations.CosineReductionBringsIntoRange := by
  refine fun f x => ⟨fun hx => ?_, cosRed_of_not_isFinite⟩
  obtain ⟨h, t, a, hh, hp, ht, ha, hred⟩ := cosRed_of_isFinite hx
  rw [hred]
  exact halfPi_sub_fabs_in_range hh hp ht ha

end Sys2Proof.Machine
end

section
/-! PROOFS. LOG2.BIT (42_approximation.md R200): the fields of the binary32 operand as bits, and the sign bit that none of them
holds. -/

namespace Sys2Proof.Machine

-- One proof at a time, as in the tests: proofs elaborated in parallel each reserve a thread's stack.
set_option Elab.async false

/-! ## The exponent and mantissa fields -/

theorem exponentField_eq (v : Pat) : (v.extractLsb' 23 8).toNat = v.toNat / 2 ^ 23 % 2 ^ 8 := by
  rw [BitVec.extractLsb'_toNat, Nat.shiftRight_eq_div_pow]

/-- The exponent field 127 above the 23 fraction bits. -/
theorem mantissaPattern_eq (v : Pat) :
    0x3F800000#64 ||| (v.extractLsb' 0 23).setWidth 64 = BitVec.ofNat 64 (0x7F * 2 ^ 23 + v.toNat % 2 ^ 23) := by
  have hfr : v.toNat % 2 ^ 23 < 2 ^ 23 := Nat.mod_lt _ (by positivity)
  have hsum : 0x7F * 2 ^ 23 + v.toNat % 2 ^ 23 = 0x3F800000 ||| v.toNat % 2 ^ 23 := by
    rw [mul_comm, Nat.two_pow_add_eq_or_of_lt hfr]
  refine BitVec.eq_of_toNat_eq ?_
  rw [hsum, BitVec.toNat_or, BitVec.toNat_setWidth, BitVec.extractLsb'_toNat, Nat.shiftRight_zero, BitVec.toNat_ofNat,
    BitVec.toNat_ofNat, ← hsum, Nat.mod_eq_of_lt (a := v.toNat % 2 ^ 23) (by omega),
    Nat.mod_eq_of_lt (a := 0x7F * 2 ^ 23 + _) (by omega), hsum]

/-- LOG2.BIT's function by the bits of the binary32 operand. -/
theorem log2Fields_eq (t : Table) (v : Pat) :
    log2Fields t v =
      fadd .b32 (i2f32 (((v.extractLsb' 23 8).toNat : ℤ) - 127))
        (fdiv .b32 (horner .b32 t.num (0x3F800000#64 ||| (v.extractLsb' 0 23).setWidth 64))
          (horner .b32 t.den (0x3F800000#64 ||| (v.extractLsb' 0 23).setWidth 64))) := by
  rw [exponentField_eq, mantissaPattern_eq]
  rfl

/-! ## The sign is ignored -/

theorem log2Fields_of_magOf_eq (t : Table) {v w : Pat} (h : magOf .b32 v = magOf .b32 w) :
    log2Fields t v = log2Fields t w := by
  replace h : v.toNat % 2 ^ 31 = w.toNat % 2 ^ 31 := h
  have hexp : v.toNat / 2 ^ 23 % 2 ^ 8 = w.toNat / 2 ^ 23 % 2 ^ 8 := by omega
  have hfrac : v.toNat % 2 ^ 23 = w.toNat % 2 ^ 23 := by omega
  simp only [log2Fields, hexp, hfrac]

theorem magOf_flipSign (f : Fmt) (a : Pat) : magOf f (flipSign f a) = magOf f a :=
  magOf_pack f _ _ (magOf_lt f a)

theorem magOf_roundPat (f : Fmt) (n : Bool) (m : ℕ) (e : ℤ) (st : Bool) :
    magOf f (roundPat f n m e st) = roundMag f m e st :=
  magOf_pack f n _ ((roundMag_le f m e st).trans_lt (infMag_lt f))

theorem magOf_infPat (f : Fmt) (n : Bool) : magOf f (infPat f n) = infMag f := magOf_pack f n _ (infMag_lt f)

/-- Rounding to another format makes one magnitude of an operand and its negative. -/
theorem magOf_convert_flipSign (f g : Fmt) (a : Pat) : magOf g (convert f g (flipSign f a)) = magOf g (convert f g a) := by
  unfold convert
  rw [unpack_flipSign]
  cases unpack f a with
  | nan => rfl
  | inf n => simp only [magOf_infPat]
  | fin n m e => simp only [magOf_roundPat]

theorem log2BitFn_flipSign (f : Fmt) (t : Table) (x : Pat) : log2BitFn f t (flipSign f x) = log2BitFn f t x := by
  cases f with
  | b32 => exact log2Fields_of_magOf_eq t (magOf_flipSign .b32 x)
  | b64 => exact congrArg widen64 (log2Fields_of_magOf_eq t (magOf_convert_flipSign .b64 .b32 x))

theorem log2Bit_setsX (s : State) (xd xa : XReg) :
    SetsX (.log2Bit xd xa) s xd (log2BitFn s.fmt s.build.tables.log2b (s.getX xa)) := setsX_of_exec rfl

/-- Settles O38: the fields of the narrowed operand are its bits, and no field holds the sign. -/
theorem bitManipulationLogarithm : Obligations.BitManipulationLogarithm := by
  refine ⟨?_, log2BitFn_flipSign⟩
  rintro s xd xa _ rfl
  rw [← log2Fields_eq]
  have hset := log2Bit_setsX s xd xa
  cases hf : s.fmt with
  | b32 => rw [hf] at hset; exact hset
  | b64 => rw [hf] at hset; exact hset

end Sys2Proof.Machine
end

section
/-! PROOFS. The biquad on one channel (43_biquad.md R231 to R253): the coefficients that a design writes, one sample, and what the
buffer forms leave of their channel. -/

namespace Sys2Proof.Machine

-- One proof at a time, as in the tests: proofs elaborated in parallel each reserve a thread's stack.
set_option Elab.async false

/-! ## Coefficients (R232 to R249) -/

theorem setsBq_of_exec {i : Instr} {s : State} {k : BqCoef} (h : exec i s = .next (s.setBq k)) : SetsBq i s k :=
  ⟨_, h, rfl, rfl⟩

/-- Settles O46: each D form writes `bqDirect` of its response, which is the formulas written out. -/
theorem biquadDirectCoefficients : Obligations.BiquadDirectCoefficients := by
  intro s xa xb
  exact ⟨setsBq_of_exec rfl, setsBq_of_exec rfl, setsBq_of_exec rfl, setsBq_of_exec rfl, setsBq_of_exec rfl⟩

/-- Settles O47: each N form writes `bqNorm` and each CS form `bqCutoff` of its response, both `bqDirect` at their `k`. -/
theorem biquadWrapperCoefficients : Obligations.BiquadWrapperCoefficients := by
  intro s xa xb xc
  exact ⟨setsBq_of_exec rfl, setsBq_of_exec rfl, setsBq_of_exec rfl, setsBq_of_exec rfl, setsBq_of_exec rfl,
    setsBq_of_exec rfl, setsBq_of_exec rfl, setsBq_of_exec rfl, setsBq_of_exec rfl, setsBq_of_exec rfl⟩

/-! ## When the checks pass, a command is its effect -/

theorem exec_of_checked {i : Instr} {s u : State} {c : Option Raised} (hx : exec i s = s.checked c u) (hc : c = none) :
    exec i s = .next u := by
  rw [hx, hc, State.checked_none]

theorem exec_bqProc {s : State} {c : Chan} (xd xa : XReg) (hc : c.val < s.build.nch) :
    exec (.bqProc xd xa c) s =
      .next ((s.setDelay c (bqShift (s.getDelay c) (s.getX xa) (bqOut s.fmt s.bq (s.getDelay c) (s.getX xa)))).setX xd
        (bqOut s.fmt s.bq (s.getDelay c) (s.getX xa))) :=
  exec_of_checked rfl ((checkChannel_eq_none _ _).2 hc)

theorem exec_bqBuf {s : State} {ra rb : RReg} {c : Chan} (hc : c.val < s.build.nch)
    (hr : RegionOk s.build (s.getR ra) (s.getR rb).toNat) :
    exec (.bqBuf ra rb c) s = .next (s.bqBuf c (s.getR ra) (s.getR rb)) :=
  exec_of_checked rfl (by simp [firstRaised_eq_none, checkChannel_eq_none, checkElems_eq_none, hc, hr])

theorem exec_bqOpt {s : State} {ra rb : RReg} {c : Chan} (hc : c.val < s.build.nch) (hn : 2 ≤ (s.getR rb).toNat)
    (hr : RegionOk s.build (s.getR ra) (s.getR rb).toNat) :
    exec (.bqOpt ra rb c) s = .next (s.bqOpt c (s.getR ra) (s.getR rb)) :=
  exec_of_checked rfl
    (by simp [firstRaised_eq_none, checkChannel_eq_none, checkCount_eq_none, checkElems_eq_none, hc, hn, hr])

theorem exec_bqOpt2 {s : State} {rd ra rb : RReg} {c : Chan} (hc : c.val < s.build.nch) (hn : 2 ≤ (s.getR rb).toNat)
    (hi : RegionOk s.build (s.getR ra) (s.getR rb).toNat) (ho : RegionOk s.build (s.getR rd) (s.getR rb).toNat)
    (hd : Disjoint2 (s.getR ra) (s.getR rd) ((s.getR rb).toNat * eb s.fmt)) :
    exec (.bqOpt2 rd ra rb c) s = .next (s.bqOpt2 c (s.getR ra) (s.getR rd) (s.getR rb)) :=
  exec_of_checked rfl
    (by simp [firstRaised_eq_none, checkChannel_eq_none, checkCount_eq_none, checkElems_eq_none, checkOverlap_eq_none,
      hc, hn, hi, ho, hd])

/-- Settles O48: the effect of BQ.PROC is one `bqOut` and one `bqShift`. -/
theorem biquadSampleResult : Obligations.BiquadSampleResult := by
  intro s xd xa c hc
  exact ⟨_, exec_bqProc xd xa hc, rfl, fun _ hj => State.getX_setX_other _ _ hj,
    fun _ hj => State.getDelay_setDelay_other s _ hj, State.getX_setX_same _ _ _, State.getDelay_setDelay_same s _ _⟩

/-! ## The first two samples of the block forms (R252, R253) -/

theorem elemAddr_add_eb (f : Fmt) (base n : Nat) : elemAddr f base n + eb f = elemAddr f base (n + 1) := by
  simp only [elemAddr, Nat.add_mul]; omega

/-- An output written is read back. -/
theorem elem_setElem_bqF (f : Fmt) (k : BqCoef) (m : Memory) (a : Nat) (x0 x1 x2 y1 y2 : Pat)
    (hm : Memory.wf m) : elem f (setElem f m a (bqF f k x0 x1 x2 y1 y2)) a = bqF f k x0 x1 x2 y1 y2 :=
  elem_setElem_same f m a _ hm (fits_bqF f k x0 x1 x2 y1 y2)

/-- The history after the first two elements at `inp`. -/
def twoSamples (f : Fmt) (k : BqCoef) (d : BqDelay) (m : Memory) (inp : Nat) : BqDelay :=
  let i0 := elem f m (elemAddr f inp 0)
  let i1 := elem f m (elemAddr f inp 1)
  let d1 := bqShift d i0 (bqOut f k d i0)
  bqShift d1 i1 (bqOut f k d1 i1)

/-- The two outputs of a history written as the first two elements at `out`. -/
def writeTwo (f : Fmt) (out : Nat) (d : BqDelay) (m : Memory) : Memory :=
  setElem f (setElem f m (elemAddr f out 0) d.y2) (elemAddr f out 1) d.y1

theorem wf_writeTwo (f : Fmt) (out : Nat) (d : BqDelay) {m : Memory} (hm : Memory.wf m) :
    Memory.wf (writeTwo f out d m) := wf_setElem f _ _ _ (wf_setElem f m _ _ hm)

theorem elem_writeTwo (f : Fmt) (k : BqCoef) (inp out : Nat) (d : BqDelay) (m : Memory) (hm : Memory.wf m) :
    let d2 := twoSamples f k d m inp
    elem f (writeTwo f out d2 m) (elemAddr f out 1) = d2.y1 ∧ elem f (writeTwo f out d2 m) (elemAddr f out 0) = d2.y2 :=
  ⟨elem_setElem_bqF f k _ _ _ _ _ _ _ (wf_setElem f m _ _ hm),
    (elem_setElem_elem f _ out 0 1 _ (by decide)).trans (elem_setElem_bqF f k m _ _ _ _ _ _ hm)⟩

/-! ## BQ_OPT is BQ_BUF (R252, R257) -/

/-- From index 2 on, when the two outputs before are the history's, BQ_OPT's loop is BQ_BUF's: the inputs it carries are the
history's, and the outputs it reads back last are the history's again. -/
theorem bqOptLoop_eq_bqBufLoop (f : Fmt) (k : BqCoef) (base j n : Nat) (d : BqDelay) (m : Memory) (hm : Memory.wf m)
    (hn : 2 ≤ n) (h1 : elem f m (elemAddr f base (n - 1)) = d.y1) (h2 : elem f m (elemAddr f base (n - 2)) = d.y2) :
    let r := bqBufLoop f k j (elemAddr f base n) d m
    bqOptLoop f k base j n d.x1 d.x2 m = ((r.1.x1, r.1.x2), r.2) ∧
      elem f r.2 (elemAddr f base (n + j - 1)) = r.1.y1 ∧ elem f r.2 (elemAddr f base (n + j - 2)) = r.1.y2 := by
  induction j generalizing n d m with
  | zero => exact ⟨rfl, h1, h2⟩
  | succ j ih =>
    have hidx : n + (j + 1) = n + 1 + j := by omega
    simp only [bqOptLoop, bqBufLoop, h1, h2, elemAddr_add_eb, hidx]
    refine ih (n + 1) (bqShift d (elem f m (elemAddr f base n)) (bqOut f k d (elem f m (elemAddr f base n)))) _
      (wf_setElem f m _ _ hm) (by omega) ?_ ?_
    · exact elem_setElem_same f m _ _ hm (fits_bqF f k _ _ _ _ _)
    · rw [elem_setElem_elem f m base _ _ _ (by omega)]
      exact h1

/-- BQ_OPT on `j + 2` samples: the first two, then the loop, then the last outputs read back. -/
theorem bqOptRun_eq (f : Fmt) (k : BqCoef) (base j : Nat) (d : BqDelay) (m : Memory) (hm : Memory.wf m) :
    let d2 := twoSamples f k d m base
    let r := bqOptLoop f k base j 2 d2.x1 d2.x2 (writeTwo f base d2 m)
    bqOptRun f k base (j + 2) d m =
      ({ x1 := r.1.1, x2 := r.1.2, y1 := elem f r.2 (elemAddr f base (2 + j - 1)),
         y2 := elem f r.2 (elemAddr f base (2 + j - 2)) }, r.2) := by
  rw [Nat.add_comm 2 j]
  simp only [bqOptRun, elem_setElem_bqF f k m _ _ _ _ _ _ hm]
  rfl

/-- BQ_BUF on the element of index `i` and the `n` after it. -/
theorem bqBufLoop_elemAddr (f : Fmt) (k : BqCoef) (base i n : Nat) (d : BqDelay) (m : Memory) :
    let x := elem f m (elemAddr f base i)
    bqBufLoop f k (n + 1) (elemAddr f base i) d m =
      bqBufLoop f k n (elemAddr f base (i + 1)) (bqShift d x (bqOut f k d x))
        (setElem f m (elemAddr f base i) (bqOut f k d x)) := by
  simp only [bqBufLoop, elemAddr_add_eb]

/-- BQ_BUF on `j + 2` samples: the first two, then the others. -/
theorem bqBufLoop_eq (f : Fmt) (k : BqCoef) (base j : Nat) (d : BqDelay) (m : Memory) :
    let d2 := twoSamples f k d m base
    bqBufLoop f k (j + 2) (elemAddr f base 0) d m = bqBufLoop f k j (elemAddr f base 2) d2 (writeTwo f base d2 m) := by
  rw [bqBufLoop_elemAddr, bqBufLoop_elemAddr, elem_setElem_elem f m base _ _ _ (by decide)]
  rfl

/-- On two samples and more BQ_OPT leaves what BQ_BUF leaves: the outputs that it reads back are the ones it wrote. -/
theorem bqOptRun_eq_bqBufLoop (f : Fmt) (k : BqCoef) (base n : Nat) (d : BqDelay) (m : Memory) (hm : Memory.wf m)
    (hn : 2 ≤ n) : bqOptRun f k base n d m = bqBufLoop f k n base d m := by
  obtain ⟨j, rfl⟩ : ∃ j, n = j + 2 := ⟨n - 2, by omega⟩
  obtain ⟨hy1, hy2⟩ := elem_writeTwo f k base base d m hm
  obtain ⟨hloop, hlast1, hlast2⟩ := bqOptLoop_eq_bqBufLoop f k base j 2 (twoSamples f k d m base) _
    (wf_writeTwo f base _ hm) le_rfl hy1 hy2
  rw [← congrArg (bqBufLoop f k (j + 2) · d m) (elemAddr_zero f base), bqBufLoop_eq, bqOptRun_eq f k base j d m hm, hloop]
  simp only [hlast1, hlast2]

/-! ## BQ_OPT2 on disjoint buffers (R253) -/

/-- The history as BQ_OPT2 finds it in its buffers before the sample of index `n ≥ 2`. -/
def bufferHistory (f : Fmt) (m : Memory) (inp out n : Nat) : BqDelay where
  x1 := elem f m (elemAddr f inp (n - 1))
  x2 := elem f m (elemAddr f inp (n - 2))
  y1 := elem f m (elemAddr f out (n - 1))
  y2 := elem f m (elemAddr f out (n - 2))

/-- An element of one region is as before when one of a disjoint region is written. -/
theorem elem_setElem_disjoint (f : Fmt) (m : Memory) {inp out n i j : Nat} (v : Pat)
    (hd : inp + n * eb f ≤ out ∨ out + n * eb f ≤ inp) (hi : i < n) (hj : j < n) :
    elem f (setElem f m (elemAddr f out j) v) (elemAddr f inp i) = elem f m (elemAddr f inp i) := by
  have hi' : (i + 1) * eb f ≤ n * eb f := Nat.mul_le_mul_right _ hi
  have hj' : (j + 1) * eb f ≤ n * eb f := Nat.mul_le_mul_right _ hj
  refine elem_setElem_other f m _ _ v ?_
  simp only [elemAddr]
  simp only [Nat.add_mul] at hi' hj'
  omega

/-- Elements of one region are as before when an element of a disjoint region is written. -/
theorem elems_setElem_disjoint (f : Fmt) (m : Memory) {inp out n i j c : Nat} (v : Pat)
    (hd : inp + n * eb f ≤ out ∨ out + n * eb f ≤ inp) (hi : i + c ≤ n) (hj : j < n) :
    elems f (setElem f m (elemAddr f out j) v) (elemAddr f inp i) c = elems f m (elemAddr f inp i) c := by
  have hi' : (i + c) * eb f ≤ n * eb f := Nat.mul_le_mul_right _ hi
  have hj' : (j + 1) * eb f ≤ n * eb f := Nat.mul_le_mul_right _ hj
  refine elems_congr f m _ _ c fun p h1 h2 => readByte_setElem_other f m _ p v ?_
  simp only [elemAddr] at h1 h2 ⊢
  simp only [Nat.add_mul] at hi' hj'
  omega

/-- One sample of BQ_OPT2 shifts the history in its buffers. -/
theorem bufferHistory_setElem (f : Fmt) (k : BqCoef) (m : Memory) {inp out n c : Nat} (hm : Memory.wf m)
    (hd : inp + c * eb f ≤ out ∨ out + c * eb f ≤ inp) (hn : 2 ≤ n) (hc : n < c) (d : BqDelay)
    (hdn : bufferHistory f m inp out n = d) :
    bufferHistory f (setElem f m (elemAddr f out n) (bqOut f k d (elem f m (elemAddr f inp n)))) inp out (n + 1) =
      bqShift d (elem f m (elemAddr f inp n)) (bqOut f k d (elem f m (elemAddr f inp n))) := by
  subst hdn
  have hinp : ∀ v i, i ≤ n → elem f (setElem f m (elemAddr f out n) v) (elemAddr f inp i) = elem f m (elemAddr f inp i) :=
    fun v i hi => elem_setElem_disjoint f m v hd (by omega) hc
  have hout : ∀ v, elem f (setElem f m (elemAddr f out n) v) (elemAddr f out (n - 1)) =
      elem f m (elemAddr f out (n - 1)) := fun v => elem_setElem_elem f m out _ _ v (by omega)
  have hidx : n + 1 - 1 = n ∧ n + 1 - 2 = n - 1 := ⟨rfl, rfl⟩
  simp only [bufferHistory, bqShift, bqOut, hidx, hinp _ n le_rfl, hinp _ (n - 1) (Nat.sub_le n 1), hout,
    elem_setElem_bqF f k m _ _ _ _ _ _ hm]

theorem elems_elemAddr (f : Fmt) (m : Memory) (base i n : Nat) :
    elems f m (elemAddr f base i) (n + 1) = elem f m (elemAddr f base i) :: elems f m (elemAddr f base (i + 1)) n := by
  rw [elems_succ, elemAddr_add_eb]

/-- One more sample in front: its output at index `i`, the other outputs behind it. -/
theorem elems_eq_bqSamples_cons {f : Fmt} {k : BqCoef} {m : Memory} {out i j : Nat} {d e : BqDelay} {x : Pat}
    {xs : List Pat} (hy : elem f m (elemAddr f out i) = bqOut f k d x)
    (hrest : (elems f m (elemAddr f out (i + 1)) j, e) = bqSamples f k (bqShift d x (bqOut f k d x)) xs) :
    (elems f m (elemAddr f out i) (j + 1), e) = bqSamples f k d (x :: xs) := by
  have hcons : bqSamples f k d (x :: xs) = (bqOut f k d x :: (bqSamples f k (bqShift d x (bqOut f k d x)) xs).1,
      (bqSamples f k (bqShift d x (bqOut f k d x)) xs).2) := rfl
  rw [hcons, ← hrest, elems_elemAddr, hy]

/-- The loop from index `n` leaves the outputs below `n`. -/
theorem elem_bqOpt2Loop_of_lt (f : Fmt) (k : BqCoef) (inp out j n : Nat) (m : Memory) {i : Nat} (hi : i < n) :
    elem f (bqOpt2Loop f k inp out j n m) (elemAddr f out i) = elem f m (elemAddr f out i) := by
  have hle : elemAddr f out i + eb f ≤ elemAddr f out n := by
    rw [elemAddr_add_eb]
    exact Nat.add_le_add_left (Nat.mul_le_mul_right _ hi) out
  exact elem_congr f m _ _ fun p _ hp => bqOpt2Loop_outside f k inp out j n m p (by omega)

/-- The loop leaves the outputs of BQ_STEP on the inputs from index `n`, and in its buffers the history after the last. -/
theorem bqOpt2Loop_samples (f : Fmt) (k : BqCoef) {inp out c : Nat} (j n : Nat) (m : Memory) (hm : Memory.wf m)
    (hd : inp + c * eb f ≤ out ∨ out + c * eb f ≤ inp) (hn : 2 ≤ n) (hc : n + j ≤ c) :
    (elems f (bqOpt2Loop f k inp out j n m) (elemAddr f out n) j,
        bufferHistory f (bqOpt2Loop f k inp out j n m) inp out (n + j)) =
      bqSamples f k (bufferHistory f m inp out n) (elems f m (elemAddr f inp n) j) := by
  induction j generalizing n m with
  | zero => rfl
  | succ j ih =>
    have hlt : n < c := by omega
    have hstep : bqOpt2Loop f k inp out (j + 1) n m = bqOpt2Loop f k inp out j (n + 1)
        (setElem f m (elemAddr f out n) (bqOut f k (bufferHistory f m inp out n) (elem f m (elemAddr f inp n)))) := rfl
    have hrest := ih (n + 1) _ (wf_setElem f m (elemAddr f out n) (bqOut f k (bufferHistory f m inp out n)
      (elem f m (elemAddr f inp n))) hm) (by omega) (by omega)
    rw [bufferHistory_setElem f k m hm hd hn hlt _ rfl] at hrest
    rw [elems_elemAddr f m, hstep]
    refine elems_eq_bqSamples_cons ?_ ?_
    · rw [elem_bqOpt2Loop_of_lt f k inp out j (n + 1) _ (Nat.lt_succ_self n)]
      exact elem_setElem_bqF f k m _ _ _ _ _ _ hm
    · rw [← elems_setElem_disjoint f m _ hd (show n + 1 + j ≤ c by omega) hlt, ← hrest,
        show n + (j + 1) = n + 1 + j by omega]

/-- BQ_OPT2 on `j + 2` samples: the first two, then the loop, then the history read back. -/
theorem bqOpt2Run_eq (f : Fmt) (k : BqCoef) (inp out j : Nat) (d : BqDelay) (m : Memory) (hm : Memory.wf m)
    (hd : inp + (j + 2) * eb f ≤ out ∨ out + (j + 2) * eb f ≤ inp) :
    let m3 := bqOpt2Loop f k inp out j 2 (writeTwo f out (twoSamples f k d m inp) m)
    bqOpt2Run f k inp out (j + 2) d m = (bufferHistory f m3 inp out (2 + j), m3) := by
  have hinp : ∀ v a, a < 2 → elem f (setElem f m (elemAddr f out 0) v) (elemAddr f inp a) = elem f m (elemAddr f inp a) :=
    fun v a ha => elem_setElem_disjoint f m v hd (by omega) (by omega)
  rw [Nat.add_comm 2 j]
  simp only [bqOpt2Run, elem_setElem_bqF f k m _ _ _ _ _ _ hm, hinp _ 0 (by decide), hinp _ 1 (by decide)]
  rfl

/-- After the first two samples the buffers hold the history. -/
theorem bufferHistory_writeTwo (f : Fmt) (k : BqCoef) (inp out j : Nat) (d : BqDelay) (m : Memory) (hm : Memory.wf m)
    (hd : inp + (j + 2) * eb f ≤ out ∨ out + (j + 2) * eb f ≤ inp) :
    let d2 := twoSamples f k d m inp
    bufferHistory f (writeTwo f out d2 m) inp out 2 = d2 := by
  intro d2
  obtain ⟨hy1, hy2⟩ := elem_writeTwo f k inp out d m hm
  have hinp : ∀ a, a < 2 → elem f (writeTwo f out d2 m) (elemAddr f inp a) = elem f m (elemAddr f inp a) := fun a ha =>
    (elem_setElem_disjoint f _ d2.y1 hd (by omega) (by omega)).trans
      (elem_setElem_disjoint f m d2.y2 hd (by omega) (by omega))
  simp only [bufferHistory, Nat.add_one_sub_one, Nat.sub_self, hinp 0 (by decide), hinp 1 (by decide)]
  exact congrArg₂ (BqDelay.mk _ _) hy1 hy2

/-- BQ_OPT2 on disjoint buffers leaves the outputs of BQ_STEP on its inputs, and the history after the last. -/
theorem bqOpt2Run_samples (f : Fmt) (k : BqCoef) (inp out n : Nat) (d : BqDelay) (m : Memory) (hm : Memory.wf m)
    (hd : inp + n * eb f ≤ out ∨ out + n * eb f ≤ inp) (hn : 2 ≤ n) :
    (elems f (bqOpt2Run f k inp out n d m).2 out n, (bqOpt2Run f k inp out n d m).1) =
      bqSamples f k d (elems f m inp n) := by
  obtain ⟨j, rfl⟩ : ∃ j, n = j + 2 := ⟨n - 2, by omega⟩
  set d2 := twoSamples f k d m inp
  obtain ⟨hy1, hy2⟩ := elem_writeTwo f k inp out d m hm
  have hkept : ∀ {i}, i < 2 → elem f (bqOpt2Loop f k inp out j 2 (writeTwo f out d2 m)) (elemAddr f out i) =
      elem f (writeTwo f out d2 m) (elemAddr f out i) := fun hi => elem_bqOpt2Loop_of_lt f k inp out j 2 _ hi
  have hloop := bqOpt2Loop_samples f k j 2 _ (wf_writeTwo f out d2 hm) hd le_rfl (by omega)
  rw [bufferHistory_writeTwo f k inp out j d m hm hd, writeTwo, elems_setElem_disjoint f _ _ hd (by omega) (by omega),
    elems_setElem_disjoint f m _ hd (by omega) (by omega)] at hloop
  have hstart : ∀ m' base, elems f m' base (j + 2) = elems f m' (elemAddr f base 0) (j + 2) := fun m' base => by
    rw [elemAddr_zero]
  rw [bqOpt2Run_eq f k inp out j d m hm hd, hstart m, hstart, elems_elemAddr f m, elems_elemAddr f m]
  exact elems_eq_bqSamples_cons ((hkept (by decide)).trans hy2)
    (elems_eq_bqSamples_cons ((hkept (by decide)).trans hy1) hloop)

/-! ## What a command on one channel leaves -/

/-- From `s` to `t` channel `c` is filtered: the outputs of BQ_STEP on the `n` elements at `inp` stand at `out`, the history
after the last is the channel's, and nothing else changed. -/
structure FiltersChannel (c : Chan) (inp out : Word) (n : Nat) (s t : State) : Prop where
  frame : SameButDelayDmem s t
  others : OtherDelays c s t
  outside : BytesOutside out.toNat (n * eb s.fmt) s.dmem t.dmem
  samples : (elems s.fmt t.dmem out.toNat n, t.getDelay c) =
    bqSamples s.fmt s.bq (s.getDelay c) (elems s.fmt s.dmem inp.toNat n)
  canonical : DmemCanonical t

theorem filtersChannel_putDelay {s : State} {c : Chan} {inp out : Word} {n : Nat} {q : BqDelay × Memory}
    (hout : BytesOutside out.toNat (n * eb s.fmt) s.dmem q.2)
    (hsamples : (elems s.fmt q.2 out.toNat n, q.1) =
      bqSamples s.fmt s.bq (s.getDelay c) (elems s.fmt s.dmem inp.toNat n))
    (hwf : Memory.wf q.2) : FiltersChannel c inp out n s (s.putDelay c q) where
  frame := rfl
  others j hj := by rw [State.getDelay_putDelay, if_neg hj]
  outside := hout
  samples := by rw [State.getDelay_putDelay, if_pos rfl]; exact hsamples
  canonical := hwf

theorem bqBuf_filtersChannel {s : State} (hs : DmemCanonical s) (c : Chan) (base count : Word) :
    FiltersChannel c base base count.toNat s (s.bqBuf c base count) :=
  filtersChannel_putDelay (fun p hp => bqBufLoop_outside s.fmt s.bq _ _ _ _ p hp) (bqBufLoop_samples _ _ _ _ _ _ hs)
    (wf_bqBufLoop _ _ _ _ _ _ hs)

/-- On canonical DMEM and two samples and more, BQ_OPT is BQ_BUF (R257). -/
theorem State.bqOpt_eq_bqBuf {s : State} (hs : DmemCanonical s) (c : Chan) (base : Word) {count : Word}
    (hn : 2 ≤ count.toNat) : s.bqOpt c base count = s.bqBuf c base count := by
  rw [bqOpt, bqBuf, bqOptRun_eq_bqBufLoop s.fmt s.bq _ _ _ _ hs hn]

theorem bqOpt2_filtersChannel {s : State} (hs : DmemCanonical s) (c : Chan) {inp out count : Word}
    (hn : 2 ≤ count.toNat) (hd : Disjoint2 inp out (count.toNat * eb s.fmt)) :
    FiltersChannel c inp out count.toNat s (s.bqOpt2 c inp out count) :=
  filtersChannel_putDelay (fun p hp => bqOpt2Run_outside s.fmt s.bq _ _ _ _ _ p hn hp)
    (bqOpt2Run_samples _ _ _ _ _ _ _ hs hd hn) (wf_bqOpt2Run _ _ _ _ _ _ _ hs)

/-- Settles O49: BQ.BUF is `bqBuf` when its checks pass. -/
theorem biquadBufferResult : Obligations.BiquadBufferResult := by
  intro s ra rb c hc hs hr
  obtain ⟨hframe, hothers, hout, hsamples, -⟩ := bqBuf_filtersChannel hs c (s.getR ra) (s.getR rb)
  exact ⟨_, exec_bqBuf hc hr, hframe, hothers, hout, hsamples⟩

/-- Settles O50: BQ.OPT is `bqOpt`, which is `bqBuf`, and BQ.OPT2 is `bqOpt2`, when their checks pass. -/
theorem blockOptimizedResults : Obligations.BlockOptimizedResults := by
  intro s rd ra rb c hc hs hn hr
  constructor
  · obtain ⟨hframe, hothers, hout, hsamples, -⟩ := bqBuf_filtersChannel hs c (s.getR ra) (s.getR rb)
    exact ⟨_, by rw [exec_bqOpt hc hn hr, State.bqOpt_eq_bqBuf hs _ _ hn], hframe, hothers, hout, hsamples⟩
  · intro hro hd
    obtain ⟨hframe, hothers, hout, hsamples, -⟩ := bqOpt2_filtersChannel hs c hn hd
    exact ⟨_, exec_bqOpt2 hc hn hr hro hd, hframe, hothers, hout, hsamples⟩

end Sys2Proof.Machine
end

section
/-! PROOFS. The biquad on all channels (43_biquad.md R254 to R257; 44_svf.md R294 to R296): a multi-channel form is its
single-channel form on one channel after the other, and the optimized forms leave what the naive forms leave. -/

namespace Sys2Proof.Machine

-- One proof at a time, as in the tests: proofs elaborated in parallel each reserve a thread's stack.
set_option Elab.async false

/-! ## When the checks of a multi-channel form pass -/

theorem State.forall_mem_pointers {s : State} {t : Word} {P : Chan × Word → Prop}
    (h : ∀ c : Chan, c.val < s.build.nch → P (c, s.tableWord t c.val)) : ∀ p ∈ s.pointers t, P p := by
  intro p hp
  obtain ⟨c, hc, rfl⟩ := List.mem_map.1 hp
  exact h c ((mem_channels _ _).1 hc)

/-- The effect of a form with one table, told by the channels (R254). -/
theorem State.foldl_pointers (s : State) (t : Word) (g : State → Chan → Word → State) :
    (s.pointers t).foldl (fun u p => g u p.1 p.2) s =
      (channels s.build).foldl (fun u c => g u c (s.tableWord t c.val)) s := List.foldl_map

/-- The effect of the form with two tables, told by the channels (R256). -/
theorem State.foldl_pointerPairs (s : State) (ti tout : Word) (g : State → Chan → Word → Word → State) :
    (s.pointerPairs ti tout).foldl (fun u p => g u p.1 p.2.1 p.2.2) s =
      (channels s.build).foldl (fun u c => g u c (s.tableWord ti c.val) (s.tableWord tout c.val)) s := List.foldl_map

section Checks

variable {s : State} {rd ra rb : RReg}

/-- The table at `r[a]` passes its check, and so do the buffers it names. -/
def BuffersOk (s : State) (rt rb : RReg) : Prop :=
  TableOk s.build (s.getR rt) ∧
    ∀ c : Chan, c.val < s.build.nch → RegionOk s.build (s.tableWord (s.getR rt) c.val) (s.getR rb).toNat

theorem BuffersOk.checkTable {rt : RReg} (h : BuffersOk s rt rb) : checkTable s.build (s.getR rt) = none :=
  (checkTable_eq_none _ _).2 h.1

theorem BuffersOk.checkBuffers {rt : RReg} (h : BuffersOk s rt rb) :
    checkBuffers s.build (s.pointers (s.getR rt)) (s.getR rb) = none :=
  (checkBuffers_eq_none _ _ _).2 (s.forall_mem_pointers h.2)

/-- The three forms of SVF.BUF, each told by what its execution is. -/
theorem exec_svfBuf {i : Instr} {o : SvfOut} {c : Chan} (hi : exec i s = s.svfBufCmd o ra rb c)
    (hc : c.val < s.build.nch) (hr : RegionOk s.build (s.getR ra) (s.getR rb).toNat) :
    exec i s = .next (s.svfBuf o c (s.getR ra) (s.getR rb)) :=
  exec_of_checked hi (by simp [firstRaised_eq_none, checkChannel_eq_none, checkElems_eq_none, hc, hr])

theorem exec_bqMbuf (h : BuffersOk s ra rb) :
    exec (.bqMbuf ra rb) s = .next ((channels s.build).foldl
      (fun u c => u.bqBuf c (s.tableWord (s.getR ra) c.val) (s.getR rb)) s) := by
  rw [← s.foldl_pointers (s.getR ra) fun u c base => u.bqBuf c base (s.getR rb)]
  exact exec_of_checked rfl (by rw [h.checkTable, h.checkBuffers]; rfl)

/-- The three forms of SVF.MBUF, each told by what its execution is. -/
theorem exec_svfMbuf {i : Instr} {o : SvfOut} (hi : exec i s = s.svfMbufCmd o ra rb) (h : BuffersOk s ra rb) :
    exec i s = .next ((channels s.build).foldl
      (fun u c => u.svfBuf o c (s.tableWord (s.getR ra) c.val) (s.getR rb)) s) := by
  rw [← s.foldl_pointers (s.getR ra) fun u c base => u.svfBuf o c base (s.getR rb)]
  exact exec_of_checked hi (by rw [h.checkTable, h.checkBuffers]; rfl)

theorem exec_bqMopt (hn : 2 ≤ (s.getR rb).toNat) (h : BuffersOk s ra rb) :
    exec (.bqMopt ra rb) s = .next ((channels s.build).foldl
      (fun u c => u.bqOpt c (s.tableWord (s.getR ra) c.val) (s.getR rb)) s) := by
  rw [← s.foldl_pointers (s.getR ra) fun u c base => u.bqOpt c base (s.getR rb)]
  exact exec_of_checked rfl (by rw [(checkCount_eq_none _).2 hn, h.checkTable, h.checkBuffers]; rfl)

theorem exec_bqMopt2 (hn : 2 ≤ (s.getR rb).toNat) (hi : BuffersOk s ra rb) (ho : BuffersOk s rd rb)
    (hd : ∀ c : Chan, c.val < s.build.nch → Disjoint2 (s.tableWord (s.getR ra) c.val) (s.tableWord (s.getR rd) c.val)
      ((s.getR rb).toNat * eb s.fmt)) :
    exec (.bqMopt2 rd ra rb) s = .next ((channels s.build).foldl
      (fun u c => u.bqOpt2 c (s.tableWord (s.getR ra) c.val) (s.tableWord (s.getR rd) c.val) (s.getR rb)) s) := by
  rw [← s.foldl_pointerPairs (s.getR ra) (s.getR rd) fun u c inp out => u.bqOpt2 c inp out (s.getR rb)]
  refine exec_of_checked rfl ?_
  simp only [firstRaised_eq_none, List.forall_mem_cons, List.not_mem_nil, false_imp_iff, implies_true, and_true,
    checkCount_eq_none, State.pointerPairs, List.forall_mem_map, mem_channels, checkElems_eq_none, checkOverlap_eq_none]
  exact ⟨hn, hi.checkTable, ho.checkTable, fun c hc => ⟨hi.2 c hc, ho.2 c hc⟩, hd⟩

end Checks

/-! ## One channel after the other (R254 to R256, R294 to R296) -/

/-- The channels of the build lie around each of them in ascending order. -/
theorem channels_split {b : Build} {c : Chan} (hc : c.val < b.nch) :
    ∃ pre post, channels b = pre ++ c :: post ∧ (∀ e ∈ pre, e.val < c.val) ∧ ∀ e ∈ post, c.val < e.val := by
  obtain ⟨pre, post, hsplit⟩ := List.append_of_mem ((mem_channels b c).2 hc)
  have hsorted : (channels b).Pairwise (· < ·) := (List.pairwise_lt_finRange 16).filter _
  rw [hsplit, List.pairwise_append, List.pairwise_cons] at hsorted
  obtain ⟨-, ⟨hpost, -⟩, hpre⟩ := hsorted
  exact ⟨pre, post, hsplit, fun e he => hpre e he c List.mem_cons_self, hpost⟩

/-- The channels of the build below `n`. -/
def channelsBelow (b : Build) (n : Nat) : List Chan := (channels b).filter fun c => decide (c.val < n)

theorem channelsBelow_zero (b : Build) : channelsBelow b 0 = [] := by simp [channelsBelow]

theorem channelsBelow_nch (b : Build) : channelsBelow b b.nch = channels b :=
  List.filter_eq_self.2 fun c hc => decide_eq_true ((mem_channels b c).1 hc)

theorem channelsBelow_succ {b : Build} {c : Chan} (hc : c.val < b.nch) :
    channelsBelow b (c.val + 1) = channelsBelow b c.val ++ [c] := by
  obtain ⟨pre, post, hsplit, hpre, hpost⟩ := channels_split hc
  have hbelow : ∀ n, c.val ≤ n → pre.filter (fun e => decide (e.val < n)) = pre := fun n hn =>
    List.filter_eq_self.2 fun e he => decide_eq_true (lt_of_lt_of_le (hpre e he) hn)
  have habove : ∀ n, n ≤ c.val + 1 → post.filter (fun e => decide (e.val < n)) = [] := fun n hn =>
    List.filter_eq_nil_iff.2 fun e he => by have := hpost e he; simp only [decide_eq_true_eq]; omega
  simp only [channelsBelow, hsplit, List.filter_append, List.filter_cons, hbelow _ le_rfl, hbelow _ (Nat.le_succ _),
    habove _ le_rfl, habove _ (Nat.le_succ _), Nat.lt_succ_self, lt_irrefl, decide_true, decide_false, if_true,
    Bool.false_eq_true, if_false, List.append_nil]

/-- What every update keeps, updates one after the other keep. -/
theorem foldl_eq_of_forall_eq {β : Type} {g : State → Chan → State} (φ : State → β) (h : ∀ u c, φ (g u c) = φ u)
    (cs : List Chan) (s : State) : φ (cs.foldl g s) = φ s := by
  induction cs generalizing s with
  | nil => rfl
  | cons c cs ih => exact (ih (g s c)).trans (h s c)

/-- The registers that a single-channel form is given: the buffer's address of channel `c` in the table at `r[a]` in `r0`, the
count in `r1`, its address in the table at `r[d]` in `r2`; the tables are those of `s`. -/
def State.singleArgs (s : State) (rd ra rb : RReg) (u : State) (c : Chan) : State :=
  ((u.setR 0 (s.tableWord (s.getR ra) c.val)).setR 1 (s.getR rb)).setR 2 (s.tableWord (s.getR rd) c.val)

section SingleArgs

variable (s : State) (rd ra rb : RReg) (u : State) (c : Chan)

theorem State.singleArgs_getR_zero : (s.singleArgs rd ra rb u c).getR 0 = s.tableWord (s.getR ra) c.val := by
  simp [singleArgs, getR_setR]

theorem State.singleArgs_getR_one : (s.singleArgs rd ra rb u c).getR 1 = s.getR rb := by
  simp [singleArgs, getR_setR]

theorem State.singleArgs_getR_two : (s.singleArgs rd ra rb u c).getR 2 = s.tableWord (s.getR rd) c.val := by
  simp [singleArgs]

end SingleArgs

/-- The state after the channels below `n`. -/
def afterChannels (g : State → Chan → State) (s : State) (n : Nat) : State := (channelsBelow s.build n).foldl g s

theorem afterChannels_zero (g : State → Chan → State) (s : State) : afterChannels g s 0 = s := by
  rw [afterChannels, channelsBelow_zero, List.foldl_nil]

theorem afterChannels_nch (g : State → Chan → State) (s : State) :
    afterChannels g s s.build.nch = (channels s.build).foldl g s := by
  rw [afterChannels, channelsBelow_nch]

theorem afterChannels_succ (g : State → Chan → State) {s : State} {c : Chan} (hc : c.val < s.build.nch) :
    afterChannels g s (c.val + 1) = g (afterChannels g s c.val) c := by
  rw [afterChannels, channelsBelow_succ hc, List.foldl_append, List.foldl_cons, List.foldl_nil, afterChannels]

/-- `many` passes through states each of which `single` of the next channel takes, given its registers by `one`, to the next,
and the integer registers stay. -/
def RunsChannelByChannel (s : State) (one : State → Chan → State) (many : Instr) (single : Chan → Instr) : Prop :=
  ∃ u : Nat → State, u 0 = s ∧ exec many s = .next (u s.build.nch) ∧
    ∀ c : Chan, c.val < s.build.nch →
      (u (c.val + 1)).r = s.r ∧ exec (single c) (one (u c.val) c) = .next (one (u (c.val + 1)) c)

/-- A form that is the updates `g` on all channels runs channel by channel when each single-channel form is `g`. -/
theorem runsChannelByChannel {s : State} {one : State → Chan → State} {many : Instr} {single : Chan → Instr}
    {g : State → Chan → State} (hmany : exec many s = .next ((channels s.build).foldl g s))
    (hr : ∀ u c, (g u c).r = u.r) (hb : ∀ u c, (g u c).build = u.build)
    (hsingle : ∀ (c : Chan) (u : State), c.val < s.build.nch → u.build = s.build →
      exec (single c) (one u c) = .next (one (g u c) c)) : RunsChannelByChannel s one many single := by
  refine ⟨afterChannels g s, afterChannels_zero g s, by rw [afterChannels_nch, hmany], fun c hc =>
    ⟨foldl_eq_of_forall_eq State.r hr _ s, ?_⟩⟩
  rw [afterChannels_succ g hc]
  exact hsingle c _ hc (foldl_eq_of_forall_eq State.build hb _ s)

section Single

variable {s u : State} {rd ra rb : RReg} {c : Chan} (hc : c.val < s.build.nch) (hu : u.build = s.build)
  (hi : RegionOk s.build (s.tableWord (s.getR ra) c.val) (s.getR rb).toNat)

include hc hu hi

theorem exec_bqBuf_singleArgs :
    exec (.bqBuf 0 1 c) (s.singleArgs rd ra rb u c) =
      .next (s.singleArgs rd ra rb (u.bqBuf c (s.tableWord (s.getR ra) c.val) (s.getR rb)) c) := by
  have hb : (s.singleArgs rd ra rb u c).build = s.build := hu
  rw [exec_bqBuf (hb ▸ hc) (by rwa [hb, State.singleArgs_getR_zero, State.singleArgs_getR_one]),
    State.singleArgs_getR_zero, State.singleArgs_getR_one]
  rfl

theorem exec_bqOpt_singleArgs (hn : 2 ≤ (s.getR rb).toNat) :
    exec (.bqOpt 0 1 c) (s.singleArgs rd ra rb u c) =
      .next (s.singleArgs rd ra rb (u.bqOpt c (s.tableWord (s.getR ra) c.val) (s.getR rb)) c) := by
  have hb : (s.singleArgs rd ra rb u c).build = s.build := hu
  rw [exec_bqOpt (hb ▸ hc) (by rwa [State.singleArgs_getR_one])
    (by rwa [hb, State.singleArgs_getR_zero, State.singleArgs_getR_one]),
    State.singleArgs_getR_zero, State.singleArgs_getR_one]
  rfl

theorem exec_bqOpt2_singleArgs (hn : 2 ≤ (s.getR rb).toNat)
    (ho : RegionOk s.build (s.tableWord (s.getR rd) c.val) (s.getR rb).toNat)
    (hd : Disjoint2 (s.tableWord (s.getR ra) c.val) (s.tableWord (s.getR rd) c.val) ((s.getR rb).toNat * eb s.fmt)) :
    exec (.bqOpt2 2 0 1 c) (s.singleArgs rd ra rb u c) =
      .next (s.singleArgs rd ra rb
        (u.bqOpt2 c (s.tableWord (s.getR ra) c.val) (s.tableWord (s.getR rd) c.val) (s.getR rb)) c) := by
  have hb : (s.singleArgs rd ra rb u c).build = s.build := hu
  have hf : (s.singleArgs rd ra rb u c).fmt = s.fmt := congrArg Build.fmt hb
  rw [exec_bqOpt2 (hb ▸ hc) (by rwa [State.singleArgs_getR_one])
    (by rwa [hb, State.singleArgs_getR_zero, State.singleArgs_getR_one])
    (by rwa [hb, State.singleArgs_getR_two, State.singleArgs_getR_one])
    (by rwa [hf, State.singleArgs_getR_zero, State.singleArgs_getR_two, State.singleArgs_getR_one]),
    State.singleArgs_getR_zero, State.singleArgs_getR_one, State.singleArgs_getR_two]
  rfl

/-- The three forms of SVF.BUF, each told by what its execution is. -/
theorem exec_svfBuf_singleArgs {i : Instr} {o : SvfOut} (hx : ∀ v, exec i v = v.svfBufCmd o 0 1 c) :
    exec i (s.singleArgs rd ra rb u c) =
      .next (s.singleArgs rd ra rb (u.svfBuf o c (s.tableWord (s.getR ra) c.val) (s.getR rb)) c) := by
  have hb : (s.singleArgs rd ra rb u c).build = s.build := hu
  rw [exec_svfBuf (hx _) (hb ▸ hc) (by rwa [hb, State.singleArgs_getR_zero, State.singleArgs_getR_one]),
    State.singleArgs_getR_zero, State.singleArgs_getR_one]
  rfl

end Single

/-- The three forms of SVF.MBUF run channel by channel. -/
theorem svfMbuf_runsChannelByChannel {s : State} {rd ra rb : RReg} {many : Instr} {single : Chan → Instr} {o : SvfOut}
    (hmany : exec many s = s.svfMbufCmd o ra rb) (hsingle : ∀ c u, exec (single c) u = u.svfBufCmd o 0 1 c)
    (h : BuffersOk s ra rb) :
    RunsChannelByChannel s (s.singleArgs rd ra rb) many single :=
  runsChannelByChannel (exec_svfMbuf hmany h) (fun _ _ => rfl) (fun _ _ => rfl)
    fun c _ hc hu => exec_svfBuf_singleArgs hc hu (h.2 c hc) (hsingle c)

/-- Settles O52: the effect of each form is its single-channel update on the channels in order. -/
theorem multiChannelFormsRunChannelByChannel : Obligations.MultiChannelFormsRunChannelByChannel := by
  intro s rd ra rb _ ht hr
  have hi : BuffersOk s ra rb := ⟨ht, hr⟩
  refine ⟨?_, svfMbuf_runsChannelByChannel (o := .hp) rfl (fun _ _ => rfl) hi,
    svfMbuf_runsChannelByChannel (o := .bp) rfl (fun _ _ => rfl) hi,
    svfMbuf_runsChannelByChannel (o := .lp) rfl (fun _ _ => rfl) hi, fun hn => ⟨?_, fun hto hout => ?_⟩⟩
  · exact runsChannelByChannel (exec_bqMbuf hi) (fun _ _ => rfl) (fun _ _ => rfl)
      fun c _ hc hu => exec_bqBuf_singleArgs hc hu (hr c hc)
  · exact runsChannelByChannel (exec_bqMopt hn hi) (fun _ _ => rfl) (fun _ _ => rfl)
      fun c _ hc hu => exec_bqOpt_singleArgs hc hu (hr c hc) hn
  · exact runsChannelByChannel (exec_bqMopt2 hn hi ⟨hto, fun c hc => (hout c hc).1⟩ fun c hc => (hout c hc).2)
      (fun _ _ => rfl) (fun _ _ => rfl)
      fun c _ hc hu => exec_bqOpt2_singleArgs hc hu (hr c hc) hn (hout c hc).1 (hout c hc).2

end Sys2Proof.Machine
end

section
/-! PROOFS. The optimized forms and the naive forms (43_biquad.md R257): BQ.OPT and BQ.MOPT are BQ.BUF and BQ.MBUF; BQ.OPT2 and
BQ.MOPT2 leave at their outputs what those leave in place, for both leave the outputs of BQ_STEP on the same inputs. -/

namespace Sys2Proof.Machine

-- One proof at a time, as in the tests: proofs elaborated in parallel each reserve a thread's stack.
set_option Elab.async false

/-! ## In place: the same outcome, faults included -/

theorem exec_bqOpt_eq_exec_bqBuf {s : State} (hs : DmemCanonical s) {ra rb : RReg} (c : Chan)
    (hn : 2 ≤ (s.getR rb).toNat) : exec (.bqOpt ra rb c) s = exec (.bqBuf ra rb c) s := by
  change s.checked (firstRaised [_, checkCount (s.getR rb), _]) _ = s.checked (firstRaised [_, _]) _
  rw [(checkCount_eq_none _).2 hn, State.bqOpt_eq_bqBuf hs c _ hn]
  cases checkChannel s.build c
  · rfl
  · rfl

theorem foldl_bqOpt_eq_foldl_bqBuf {count : Word} (hn : 2 ≤ count.toNat) (ps : List (Chan × Word)) {s : State}
    (hs : DmemCanonical s) :
    ps.foldl (fun u p => u.bqOpt p.1 p.2 count) s = ps.foldl (fun u p => u.bqBuf p.1 p.2 count) s := by
  induction ps generalizing s with
  | nil => rfl
  | cons p ps ih =>
    rw [List.foldl_cons, List.foldl_cons, State.bqOpt_eq_bqBuf hs p.1 p.2 hn]
    exact ih (bqBuf_filtersChannel hs p.1 p.2 count).canonical

theorem exec_bqMopt_eq_exec_bqMbuf {s : State} (hs : DmemCanonical s) {ra rb : RReg} (hn : 2 ≤ (s.getR rb).toNat) :
    exec (.bqMopt ra rb) s = exec (.bqMbuf ra rb) s := by
  change s.checked (firstRaised [checkCount (s.getR rb), _, _]) _ = s.checked (firstRaised [_, _]) _
  rw [(checkCount_eq_none _).2 hn, foldl_bqOpt_eq_foldl_bqBuf hn _ hs, firstRaised_none]

/-! ## Filtering channel after channel -/

theorem SameButDelayDmem.fmt_bq {s t : State} (h : SameButDelayDmem s t) : t.fmt = s.fmt ∧ t.bq = s.bq := by
  unfold SameButDelayDmem at h
  rw [h]
  exact ⟨rfl, rfl⟩

theorem FiltersChannel.fmt {c : Chan} {inp out : Word} {n : Nat} {s t : State} (h : FiltersChannel c inp out n s t) :
    t.fmt = s.fmt := h.frame.fmt_bq.1

theorem FiltersChannel.bq {c : Chan} {inp out : Word} {n : Nat} {s t : State} (h : FiltersChannel c inp out n s t) :
    t.bq = s.bq := h.frame.fmt_bq.2

/-- Filtering a channel leaves the elements of every buffer that its output buffer does not meet. -/
theorem FiltersChannel.elems_of_disjoint {c : Chan} {inp out base : Word} {n : Nat} {s t : State}
    (h : FiltersChannel c inp out n s t) (hd : Disjoint2 base out (n * eb s.fmt)) :
    elems s.fmt t.dmem base.toNat n = elems s.fmt s.dmem base.toNat n :=
  elems_congr s.fmt _ _ _ n fun p h1 h2 => h.outside p (by unfold Disjoint2 at hd; omega)

/-- Each of the channels `cs` is filtered by `g`, from its `inp` to its `out`, in any state of the format `f`. -/
def FiltersEach (g : State → Chan → State) (inp out : Chan → Word) (n : Nat) (f : Fmt) (cs : List Chan) : Prop :=
  ∀ c ∈ cs, ∀ u : State, DmemCanonical u → u.fmt = f → FiltersChannel c (inp c) (out c) n u (g u c)

section FiltersEach

variable {g : State → Chan → State} {inp out : Chan → Word} {n : Nat} {c : Chan} {cs : List Chan} {s : State}

theorem FiltersEach.head (hg : FiltersEach g inp out n s.fmt (c :: cs)) (hs : DmemCanonical s) :
    FiltersChannel c (inp c) (out c) n s (g s c) := hg c List.mem_cons_self s hs rfl

theorem FiltersEach.tail (hg : FiltersEach g inp out n s.fmt (c :: cs)) (hs : DmemCanonical s) :
    FiltersEach g inp out n (g s c).fmt cs := by
  rw [(hg.head hs).fmt]
  exact fun e he => hg e (List.mem_cons_of_mem c he)

/-- A channel that is not filtered keeps its history. -/
theorem FiltersEach.getDelay_of_not_mem (hg : FiltersEach g inp out n s.fmt cs) (hs : DmemCanonical s) {e : Chan}
    (he : e ∉ cs) : (cs.foldl g s).getDelay e = s.getDelay e := by
  induction cs generalizing s with
  | nil => rfl
  | cons c cs ih =>
    obtain ⟨hec, hecs⟩ := not_or.1 (mt List.mem_cons.2 he)
    exact (ih (hg.tail hs) (hg.head hs).canonical hecs).trans ((hg.head hs).others e hec)

/-- A buffer that no output buffer meets keeps its elements. -/
theorem FiltersEach.elems_of_disjoint (hg : FiltersEach g inp out n s.fmt cs) (hs : DmemCanonical s) {base : Word}
    (hd : ∀ c ∈ cs, Disjoint2 base (out c) (n * eb s.fmt)) :
    elems s.fmt (cs.foldl g s).dmem base.toNat n = elems s.fmt s.dmem base.toNat n := by
  induction cs generalizing s with
  | nil => rfl
  | cons c cs ih =>
    have hc := hg.head hs
    have hrest := ih (hg.tail hs) hc.canonical (by rw [hc.fmt]; exact fun e he => hd e (List.mem_cons_of_mem c he))
    rw [hc.fmt] at hrest
    exact hrest.trans (hc.elems_of_disjoint (hd c List.mem_cons_self))

/-- When no output buffer meets another channel's buffers, every channel is filtered as if it were alone. -/
theorem FiltersEach.samples (hg : FiltersEach g inp out n s.fmt cs) (hs : DmemCanonical s) (hcs : cs.Nodup)
    (hd : ∀ c ∈ cs, ∀ e ∈ cs, c ≠ e →
      Disjoint2 (inp c) (out e) (n * eb s.fmt) ∧ Disjoint2 (out c) (out e) (n * eb s.fmt)) :
    ∀ e ∈ cs, (elems s.fmt (cs.foldl g s).dmem (out e).toNat n, (cs.foldl g s).getDelay e) =
      bqSamples s.fmt s.bq (s.getDelay e) (elems s.fmt s.dmem (inp e).toNat n) := by
  induction cs generalizing s with
  | nil => simp
  | cons c cs ih =>
    have hc := hg.head hs
    obtain ⟨hnot, hnodup⟩ := List.nodup_cons.1 hcs
    have hmem : ∀ {e}, e ∈ cs → e ∈ c :: cs := List.mem_cons_of_mem c
    have hne : ∀ {e}, e ∈ cs → e ≠ c := fun he h => hnot (h ▸ he)
    intro e he
    rcases List.mem_cons.1 he with rfl | he
    · have hkept := (hg.tail hs).elems_of_disjoint hc.canonical (base := out e)
        (by rw [hc.fmt]; exact fun a ha => (hd e he a (hmem ha) (hne ha).symm).2)
      rw [hc.fmt] at hkept
      rw [List.foldl_cons, hkept, (hg.tail hs).getDelay_of_not_mem hc.canonical hnot]
      exact hc.samples
    · have hrest := ih (hg.tail hs) hc.canonical hnodup
        (by rw [hc.fmt]; exact fun a ha b hb => hd a (hmem ha) b (hmem hb)) e he
      rw [hc.fmt, hc.bq, hc.others e (hne he), hc.elems_of_disjoint (hd e (hmem he) c List.mem_cons_self (hne he)).1] at hrest
      exact hrest

end FiltersEach

theorem nodup_channels (b : Build) : (channels b).Nodup := (List.nodup_finRange 16).filter _

theorem State.bqd_ext {s t : State} (h : ∀ c, s.getDelay c = t.getDelay c) : s.bqd = t.bqd :=
  Vector.ext fun i hi => h ⟨i, hi⟩

/-- Two ways to filter the channels of the build from the same inputs leave the same histories and the same outputs. -/
theorem foldl_channels_agree {g g' : State → Chan → State} {inp out out' : Chan → Word} {n : Nat} {s : State}
    (hs : DmemCanonical s) (hg : FiltersEach g inp out n s.fmt (channels s.build))
    (hg' : FiltersEach g' inp out' n s.fmt (channels s.build))
    (hd : ∀ c e : Chan, c.val < s.build.nch → e.val < s.build.nch → c ≠ e →
      Disjoint2 (inp c) (out e) (n * eb s.fmt) ∧ Disjoint2 (out c) (out e) (n * eb s.fmt))
    (hd' : ∀ c e : Chan, c.val < s.build.nch → e.val < s.build.nch → c ≠ e →
      Disjoint2 (inp c) (out' e) (n * eb s.fmt) ∧ Disjoint2 (out' c) (out' e) (n * eb s.fmt)) :
    ((channels s.build).foldl g s).bqd = ((channels s.build).foldl g' s).bqd ∧
      ∀ e : Chan, e.val < s.build.nch →
        elems s.fmt ((channels s.build).foldl g s).dmem (out e).toNat n =
          elems s.fmt ((channels s.build).foldl g' s).dmem (out' e).toNat n := by
  simp only [← mem_channels] at hd hd' ⊢
  have hnodup := nodup_channels s.build
  have hall := hg.samples hs hnodup fun c hc e he => hd c e hc he
  have hall' := hg'.samples hs hnodup fun c hc e he => hd' c e hc he
  have hsame := fun e he => Prod.ext_iff.1 ((hall e he).trans (hall' e he).symm)
  refine ⟨State.bqd_ext fun e => ?_, fun e he => (hsame e he).1⟩
  by_cases he : e ∈ channels s.build
  · exact (hsame e he).2
  · rw [hg.getDelay_of_not_mem hs he, hg'.getDelay_of_not_mem hs he]

/-! ## From inputs to outputs -/

/-- BQ.OPT2 leaves at its output buffer, and in its channel's history, what BQ.BUF of its input buffer leaves. -/
theorem bqOpt2_agrees_bqBuf {s : State} (hs : DmemCanonical s) (c : Chan) {inp out count : Word} (hn : 2 ≤ count.toNat)
    (hd : Disjoint2 inp out (count.toNat * eb s.fmt)) :
    elems s.fmt (s.bqOpt2 c inp out count).dmem out.toNat count.toNat =
        elems s.fmt (s.bqBuf c inp count).dmem inp.toNat count.toNat ∧
      (s.bqOpt2 c inp out count).bqd = (s.bqBuf c inp count).bqd := by
  have hopt := bqOpt2_filtersChannel hs c hn hd
  have hbuf := bqBuf_filtersChannel hs c inp count
  obtain ⟨helems, hdelay⟩ := Prod.ext_iff.1 (hopt.samples.trans hbuf.samples.symm)
  refine ⟨helems, State.bqd_ext fun e => ?_⟩
  by_cases he : e = c
  · rw [he]; exact hdelay
  · rw [hopt.others e he, hbuf.others e he]

theorem Disjoint2.symm {i o : Word} {len : Nat} (h : Disjoint2 i o len) : Disjoint2 o i len := Or.symm h

/-- Settles O51: the in-place forms by `bqOptRun_eq_bqBufLoop`, the others by what each leaves on the inputs. -/
theorem optimizedFormsEqualTheNaiveForms : Obligations.OptimizedFormsEqualTheNaiveForms := by
  intro s rd ra rb c hs hn
  refine ⟨exec_bqOpt_eq_exec_bqBuf hs c hn, exec_bqMopt_eq_exec_bqMbuf hs hn, fun hc hi ho hd => ?_, ?_⟩
  · exact ⟨_, _, exec_bqOpt2 hc hn hi ho hd, exec_bqBuf hc hi, bqOpt2_agrees_bqBuf hs c hn hd⟩
  · intro _ hti hto inp out len hr hd
    have hi : BuffersOk s ra rb := ⟨hti, fun e he => (hr e he).1⟩
    have ho : BuffersOk s rd rb := ⟨hto, fun e he => (hr e he).2⟩
    have hsep : ∀ e g : Chan, e.val < s.build.nch → g.val < s.build.nch → e ≠ g →
        (Disjoint2 (inp e) (out g) len ∧ Disjoint2 (out e) (out g) len) ∧
          (Disjoint2 (inp e) (inp g) len ∧ Disjoint2 (inp e) (inp g) len) := fun e g he hg hne => by
      obtain ⟨hio, hrest⟩ := hd e g he hg
      obtain ⟨hii, hoo⟩ := hrest hne
      exact ⟨⟨hio, hoo⟩, hii, hii⟩
    have hself : ∀ e : Chan, e.val < s.build.nch → Disjoint2 (inp e) (out e) len := fun e he => (hd e e he he).1
    have hagree := foldl_channels_agree (n := (s.getR rb).toNat) (inp := inp) (out := out) (out' := inp)
      (g := fun u e => u.bqOpt2 e (inp e) (out e) (s.getR rb)) (g' := fun u e => u.bqBuf e (inp e) (s.getR rb)) hs
      (fun e he u hu hf => bqOpt2_filtersChannel hu e hn (by rw [hf]; exact hself e ((mem_channels _ _).1 he)))
      (fun e _ u hu _ => bqBuf_filtersChannel hu e (inp e) (s.getR rb))
      (fun e g he hg hne => (hsep e g he hg hne).1) (fun e g he hg hne => (hsep e g he hg hne).2)
    exact ⟨_, _, exec_bqMopt2 hn hi ho hself, exec_bqMbuf hi, hagree⟩

end Sys2Proof.Machine
end

section
/-! PROOFS. The buffers of the multi-channel commands (43_biquad.md R254 to R256; 44_svf.md R294; 60_exceptions.md R319): the first
channel whose buffer fails decides, and the overlaps of BQ.MOPT2 come last. -/

namespace Sys2Proof.Machine

-- One proof at a time, as in the tests: proofs elaborated in parallel each reserve a thread's stack.
set_option Elab.async false

/-! ## Checks of one channel after the other -/

/-- The check of channel `c` decides what the checks of all channels raise when those of the lower channels pass. -/
theorem firstRaised_channels {b : Build} {c : Chan} (chk : Chan → Option Raised) {e : Raised} (hc : c.val < b.nch)
    (hlow : ∀ d : Chan, d.val < c.val → chk d = none) (he : chk c = some e) :
    firstRaised ((channels b).map chk) = some e := by
  obtain ⟨pre, post, hsplit, hpre, -⟩ := channels_split hc
  rw [hsplit, List.map_append, List.map_cons]
  exact firstRaised_of_pass (List.forall_mem_map.2 fun d hd => hlow d (hpre d hd)) he

theorem checkBuffers_pointers (s : State) (t count : Word) :
    checkBuffers s.build (s.pointers t) count =
      firstRaised ((channels s.build).map fun c => checkElems s.build (s.tableWord t c.val) count.toNat) := by
  rw [checkBuffers, State.pointers, List.map_map]
  rfl

section Buffers

variable {s : State} {rd ra rb : RReg} {c : Chan} (hc : c.val < s.build.nch)

include hc

/-- A form with one table, given by the checks before its buffers', faults on the first buffer that fails. -/
theorem bufferFaults_of_checked {i : Instr} {u : State} {t count : Word} (pre : List (Option Raised))
    (hx : exec i s = s.checked (firstRaised (pre ++ [checkBuffers s.build (s.pointers t) count])) u)
    (hpre : ∀ d ∈ pre, d = none) (hn : count.toNat ≠ 0)
    (hlow : ∀ e : Chan, e.val < c.val → RegionOk s.build (s.tableWord t e.val) count.toNat) :
    RegionFaults i s (s.tableWord t c.val) (count.toNat * eb s.fmt) (eb s.fmt) :=
  regionFaults_of_checked hx hn fun _ he => firstRaised_of_pass hpre <| by
    rw [checkBuffers_pointers]
    exact firstRaised_channels _ hc (fun d hd => (checkElems_eq_none _ _ _).2 (hlow d hd)) he

variable (ht : TableOk s.build (s.getR ra))

include ht

section OneTable

variable (hlow : ∀ e : Chan, e.val < c.val → RegionOk s.build (s.tableWord (s.getR ra) e.val) (s.getR rb).toNat)

include hlow

theorem bqMbuf_bufferFaults (hn : 0 < (s.getR rb).toNat) :
    RegionFaults (.bqMbuf ra rb) s (s.tableWord (s.getR ra) c.val) ((s.getR rb).toNat * eb s.fmt) (eb s.fmt) :=
  bufferFaults_of_checked hc [checkTable s.build (s.getR ra)] rfl (by simpa [checkTable_eq_none] using ht) hn.ne' hlow

/-- The three forms of SVF.MBUF, each told by what its execution is. -/
theorem svfMbuf_bufferFaults {i : Instr} {o : SvfOut} (hi : exec i s = s.svfMbufCmd o ra rb)
    (hn : 0 < (s.getR rb).toNat) :
    RegionFaults i s (s.tableWord (s.getR ra) c.val) ((s.getR rb).toNat * eb s.fmt) (eb s.fmt) :=
  bufferFaults_of_checked hc [checkTable s.build (s.getR ra)] hi (by simpa [checkTable_eq_none] using ht) hn.ne' hlow

theorem bqMopt_bufferFaults (hn : 2 ≤ (s.getR rb).toNat) :
    RegionFaults (.bqMopt ra rb) s (s.tableWord (s.getR ra) c.val) ((s.getR rb).toNat * eb s.fmt) (eb s.fmt) :=
  bufferFaults_of_checked hc [checkCount (s.getR rb), checkTable s.build (s.getR ra)] rfl
    (by simp [checkCount_eq_none, checkTable_eq_none, hn, ht]) (by omega) hlow

end OneTable

/-- The output table of BQ.MOPT2 is checked when the input table passes. -/
theorem bqMopt2_tableFaults_out (hn : 2 ≤ (s.getR rb).toNat) :
    RegionFaults (.bqMopt2 rd ra rb) s (s.getR rd) (s.build.nch * 4) 4 :=
  regionFaults_of_pass [checkCount (s.getR rb), checkTable s.build (s.getR ra)] _ rfl
    (by simp [checkCount_eq_none, checkTable_eq_none, hn, ht]) (by omega)

end Buffers

/-! ## The buffers of BQ.MOPT2 -/

section Pairs

variable {s : State} {rd ra rb : RReg} {c : Chan}

/-- The check of one channel's two buffers, the input before the output (R256). -/
def checkPair (s : State) (rd ra rb : RReg) (c : Chan) : Option Raised :=
  firstRaised [checkElems s.build (s.tableWord (s.getR ra) c.val) (s.getR rb).toNat,
    checkElems s.build (s.tableWord (s.getR rd) c.val) (s.getR rb).toNat]

/-- The overlap check of one channel's two buffers (R256). -/
def checkPairOverlap (s : State) (rd ra rb : RReg) (c : Chan) : Option Raised :=
  checkOverlap (s.tableWord (s.getR ra) c.val) (s.tableWord (s.getR rd) c.val) ((s.getR rb).toNat * eb s.fmt)

theorem checkPair_eq_none : checkPair s rd ra rb c = none ↔
    RegionOk s.build (s.tableWord (s.getR ra) c.val) (s.getR rb).toNat ∧
      RegionOk s.build (s.tableWord (s.getR rd) c.val) (s.getR rb).toNat := by
  simp [checkPair, firstRaised_eq_none, checkElems_eq_none]

theorem checkPair_of_inp {e : Raised}
    (h : checkElems s.build (s.tableWord (s.getR ra) c.val) (s.getR rb).toNat = some e) :
    checkPair s rd ra rb c = some e := by
  rw [checkPair, h, firstRaised_some]

theorem checkPair_of_out {e : Raised} (hi : RegionOk s.build (s.tableWord (s.getR ra) c.val) (s.getR rb).toNat)
    (h : checkElems s.build (s.tableWord (s.getR rd) c.val) (s.getR rb).toNat = some e) :
    checkPair s rd ra rb c = some e := by
  rw [checkPair, (checkElems_eq_none _ _ _).2 hi, h, firstRaised_none, firstRaised_some]

/-- What BQ.MOPT2 raises when its count and tables pass: what the pairs raise in ascending order, then the overlaps (R256). -/
theorem exec_bqMopt2_of_tables (hn : 2 ≤ (s.getR rb).toNat) (hti : TableOk s.build (s.getR ra))
    (hto : TableOk s.build (s.getR rd)) :
    ∃ u, exec (.bqMopt2 rd ra rb) s = s.checked (firstRaised
      [firstRaised ((channels s.build).map (checkPair s rd ra rb)),
        firstRaised ((channels s.build).map (checkPairOverlap s rd ra rb))]) u := by
  have hx : exec (.bqMopt2 rd ra rb) s = execBqMopt2 rd ra rb s := rfl
  rw [hx, execBqMopt2, (checkCount_eq_none _).2 hn, (checkTable_eq_none _ _).2 hti, (checkTable_eq_none _ _).2 hto,
    State.pointerPairs, List.map_map, List.map_map]
  exact ⟨_, rfl⟩

variable (hn : 2 ≤ (s.getR rb).toNat) (hti : TableOk s.build (s.getR ra)) (hto : TableOk s.build (s.getR rd))
  (hc : c.val < s.build.nch)

include hn hti hto hc

/-- The first channel that has a failing buffer decides, by the first of its two that fails. -/
theorem bqMopt2_bufferFaults {base : Word}
    (hlow : ∀ e : Chan, e.val < c.val → RegionOk s.build (s.tableWord (s.getR ra) e.val) (s.getR rb).toNat ∧
      RegionOk s.build (s.tableWord (s.getR rd) e.val) (s.getR rb).toNat)
    (hbase : ∀ e, checkElems s.build base (s.getR rb).toNat = some e → checkPair s rd ra rb c = some e) :
    RegionFaults (.bqMopt2 rd ra rb) s base ((s.getR rb).toNat * eb s.fmt) (eb s.fmt) := by
  obtain ⟨u, hx⟩ := exec_bqMopt2_of_tables hn hti hto
  refine regionFaults_of_checked hx (by omega) fun e he => ?_
  rw [firstRaised_channels _ hc (fun d hd => checkPair_eq_none.2 (hlow d hd)) (hbase e he), firstRaised_some]

/-- When all buffers pass, the first channel whose buffers overlap decides (R317). -/
theorem bqMopt2_overlapFaults
    (hall : ∀ e : Chan, e.val < s.build.nch → RegionOk s.build (s.tableWord (s.getR ra) e.val) (s.getR rb).toNat ∧
      RegionOk s.build (s.tableWord (s.getR rd) e.val) (s.getR rb).toNat)
    (hlow : ∀ e : Chan, e.val < c.val → Disjoint2 (s.tableWord (s.getR ra) e.val) (s.tableWord (s.getR rd) e.val)
      ((s.getR rb).toNat * eb s.fmt))
    (ho : ¬Disjoint2 (s.tableWord (s.getR ra) c.val) (s.tableWord (s.getR rd) c.val)
      ((s.getR rb).toNat * eb s.fmt)) :
    FaultsWith (.bqMopt2 rd ra rb) s 6 (s.tableWord (s.getR rd) c.val) := by
  obtain ⟨u, hx⟩ := exec_bqMopt2_of_tables hn hti hto
  have hpairs : firstRaised ((channels s.build).map (checkPair s rd ra rb)) = none :=
    (firstRaised_eq_none _).2 <| List.forall_mem_map.2 fun e he => checkPair_eq_none.2 (hall e ((mem_channels _ _).1 he))
  have hoverlap : firstRaised ((channels s.build).map (checkPairOverlap s rd ra rb)) =
      some ⟨.overlap, s.tableWord (s.getR rd) c.val⟩ :=
    firstRaised_channels _ hc (fun d hd => (checkOverlap_eq_none _ _ _).2 (hlow d hd)) (checkOverlap_of_not _ _ _ ho)
  exact faultsWith_of_checked hx (by rw [hpairs, hoverlap, firstRaised_none, firstRaised_some])

end Pairs

/-- Settles O59, from the buffers of each command and the overlaps of BQ.MOPT2. -/
theorem multiChannelFaults : Obligations.MultiChannelFaults := by
  intro s rd ra rb c _ hc ht
  refine ⟨fun hn hlow => ⟨bqMbuf_bufferFaults hc ht hlow hn, svfMbuf_bufferFaults hc ht hlow (o := .hp) rfl hn,
      svfMbuf_bufferFaults hc ht hlow (o := .bp) rfl hn, svfMbuf_bufferFaults hc ht hlow (o := .lp) rfl hn,
      bqMopt_bufferFaults hc ht hlow⟩,
    fun hn => ⟨bqMopt2_tableFaults_out hc ht hn, fun hto => ⟨fun hlow => ⟨?_, fun hi => ?_⟩, ?_⟩⟩⟩
  · exact bqMopt2_bufferFaults hn ht hto hc hlow fun _ he => checkPair_of_inp he
  · exact bqMopt2_bufferFaults hn ht hto hc hlow fun _ he => checkPair_of_out hi he
  · exact bqMopt2_overlapFaults hn ht hto hc

end Sys2Proof.Machine
end

section
/-! PROOFS. No command and no step of a legal build is stuck (70_reset_and_hazards.md R371): each ends in a next state, the
faulting ones in that of their fault entry (60_exceptions.md R320). -/

namespace Sys2Proof.Machine

/-! ## Commands -/

theorem execSvfSetc_next (rd : RReg) (xa xb : XReg) (s : State) : ∃ t, execSvfSetc rd xa xb s = .next t := by
  simp only [execSvfSetc]
  split
  · exact ⟨_, rfl⟩
  · exact ⟨_, rfl⟩

/-- Every command answers a next state: the first group makes no check, SVF.SETC chooses between two effects, and the
others end in their effect or in fault entry. -/
theorem exec_next (i : Instr) (s : State) : ∃ t, exec i s = .next t := by
  cases i with
  | nop | setr | setrh | addri | mov | sinRef | sinFast | sinFaster | cosRef | cosFast | cosFaster | tanRef | tanFast
  | tanFaster | tanhRef | tanhFast | log2Ref | log2Fast | log2Bit | sqrtRef | sqrtFast | fmin | fmax | clip | within
  | const | bqLpN | bqLpCs | bqLpD | bqHpN | bqHpCs | bqHpD | bqBpN | bqBpCs | bqBpD | bqBrN | bqBrCs | bqBrD | bqApN
  | bqApCs | bqApD | svfReset | svfSetu => exact ⟨_, rfl⟩
  | svfSetc rd xa xb => exact execSvfSetc_next rd xa xb s
  | ld | st | mfc | polyHorner | polyFma2 | polyEstrin | polyRat | bqProc | bqBuf | bqOpt | bqOpt2 | bqMbuf | bqMopt
  | bqMopt2 | svfProcHp | svfProcBp | svfProcLp | svfFrame | svfBufHp | svfBufBp | svfBufLp | svfMbufHp | svfMbufBp
  | svfMbufLp => exact s.checked_next _ _

/-- The turn of the accepted word, legal or not (30_encoding.md R118, R122). -/
theorem runCommand_next (s : State) : ∃ t, runCommand s = .next t := by
  cases h : decode s.cmd with
  | ok i => rw [runCommand_of_ok h]; exact exec_next i _
  | error e => exact ⟨_, runCommand_of_error h⟩

/-! ## Steps -/

theorem step_idle {s : State} (hb : buildLegal s.build = true) (hr : s.run = .idle) : step s = stepIdle s := by
  simp [step, hb, hr]

theorem step_fault {s : State} (hb : buildLegal s.build = true) (hr : s.run = .fault) : step s = stepFault s := by
  simp [step, hb, hr]

theorem step_of_illegal {s : State} (hb : buildLegal s.build = false) : step s = .fault .configurationError := by
  simp [step, hb]

theorem stepIdle_next (s : State) : ∃ t, stepIdle s = .next t := by
  unfold stepIdle
  split
  · exact ⟨_, rfl⟩
  · split <;> exact ⟨_, rfl⟩

theorem stepFault_next (s : State) : ∃ t, stepFault s = .next t := by
  unfold stepFault
  split
  · exact ⟨_, rfl⟩
  · split <;> exact ⟨_, rfl⟩

/-- In `BUSY` the host's reset, poll or `CMD` write happens, and otherwise the command has its turn. -/
theorem stepBusy_next (s : State) : ∃ t, stepBusy s = .next t := by
  unfold stepBusy
  split
  · exact ⟨_, rfl⟩
  · exact ⟨_, rfl⟩
  · exact ⟨_, rfl⟩
  all_goals exact runCommand_next _

theorem step_next {s : State} (hb : buildLegal s.build = true) : ∃ t, step s = .next t := by
  cases hr : s.run with
  | idle => rw [step_idle hb hr]; exact stepIdle_next s
  | busy => rw [step_busy hb hr]; exact stepBusy_next s
  | fault => rw [step_fault hb hr]; exact stepFault_next s

/-- Settles O7, from the commands and from the steps in each run state. -/
theorem stepAndCommandsAlwaysAnswer : Obligations.StepAndCommandsAlwaysAnswer :=
  ⟨exec_next, fun _ => step_next, fun _ => step_of_illegal⟩

end Sys2Proof.Machine
end

section
/-! PROOFS. The host's reset (70_reset_and_hazards.md R350 to R352): when a step performs it, and what the host and the filters
read afterwards. -/

namespace Sys2Proof.Machine

/-- A reset that stands first in the host's list is performed in every run state. In `IDLE` and `FAULT` a `CMD` write that
waits would go first (log 11). -/
theorem step_hostReset {s : State} {rest : List HostTx} (hb : buildLegal s.build = true) (hh : s.host = .reset :: rest)
    (hw : s.run = .busy ∨ s.waiting = none) : step s = .next s.popHost.hostReset := by
  cases hr : s.run with
  | busy => rw [step_busy hb hr, stepBusy, hh]
  | idle =>
    have hnone : s.waiting = none := hw.resolve_left (by simp [hr])
    rw [step_idle hb hr, stepIdle, hnone, hh]
  | fault =>
    have hnone : s.waiting = none := hw.resolve_left (by simp [hr])
    rw [step_fault hb hr, stepFault, hnone, hh]

@[simp] theorem State.irq_hostReset (s : State) : s.hostReset.irq = false := rfl

/-- After a reset the host reads 0 from every system register that the build does not hardwire. -/
theorem State.readSys_hostReset (s : State) {g : SysReg} (hg : g ≠ .cfg) : s.hostReset.readSys g = 0 := by
  cases g with
  | cfg => exact absurd rfl hg
  | cmd | status | cause | finfo | fcmd => rfl

@[simp] theorem State.getDelay_hostReset (s : State) (c : Chan) : s.hostReset.getDelay c = ⟨0, 0, 0, 0⟩ := by
  simp [getDelay]

@[simp] theorem State.getSvf_hostReset (s : State) (c : Chan) : s.hostReset.getSvf c = ⟨0, 0, 0⟩ := by
  simp [getSvf]

/-- Settles O11: the step is the reset, by `step_hostReset`, and `+0` is the pattern 0 in both formats. -/
theorem hostResetLeavesTheResetState : Obligations.HostResetLeavesTheResetState := by
  intro s rest hb hh hw
  refine ⟨s.popHost.hostReset, step_hostReset hb hh hw, State.hostReset_run _, State.irq_hostReset _,
    State.readSys_hostReset _ ?_, State.readSys_hostReset _ ?_, State.readSys_hostReset _ ?_, State.readSys_hostReset _ ?_,
    State.hostReset_waiting _, State.hostReset_build _, State.hostReset_bq _, State.hostReset_svf _,
    fun c => ⟨State.getDelay_hostReset _ c, State.getSvf_hostReset _ c⟩⟩
  all_goals decide

end Sys2Proof.Machine
end

section
/-! PROOFS. The decoder and the encoder are each other's inverse (30_encoding.md R111 to R118): on the
fields of a word, unit by unit; a word is then its fields. -/

namespace Sys2Proof

-- One proof at a time: proofs elaborated in parallel each reserve a thread's stack.
set_option Elab.async false

/-! ## Fields of an encoded command decode to the command -/

theorem onlyIf_eq_ok {ok : Bool} {why : Illegal} {i j : Instr} : onlyIf ok why i = .ok j ↔ ok = true ∧ i = j := by
  cases ok <;> simp [onlyIf]

@[simp] theorem selOf_fmtR_selCh (op : BitVec 8) (d a b c : Fin 16) (s : BitVec 4) (ch : Chan) :
    selOf (fmtR op d a b c (selCh s ch)) = s := selCh_high s ch

@[simp] theorem chOf_fmtR_selCh (op : BitVec 8) (d a b c : Fin 16) (s : BitVec 4) (ch : Chan) :
    chOf (fmtR op d a b c (selCh s ch)) = ch := selCh_low s ch

/-- Each command's fields bring the decoder to the command's own arm, by its opcode and then by its selector, and pass
the tests of that arm. -/
theorem decodeFields_encodeFields (i : Instr) (h : i.wellFormed = true) : decodeFields (encodeFields i) = .ok i := by
  cases i with
  | setr | setrh | addri | ld | st =>
    simp only [encodeFields, decodeFields, decodeMove, imm16Of_fmtI]
    simp [fmtI, onlyIf]
  | nop | mov => simp [encodeFields, decodeFields, decodeMove, fmtR, onlyIf]
  | const xd k => simp [encodeFields, decodeFields, decodeMove, fmtR, constOfNumber_constNumber, onlyIf]
  | mfc xd csr ch =>
    have hok : csr.perChannel = true ∨ ch = 0 := by simpa [Instr.wellFormed] using h
    simpa [encodeFields, decodeFields, decodeMove, fmtR, csrOfNumber_csrNumber, onlyIf_eq_ok, ← BitVec.toFin_inj]
      using hok
  | polyHorner _ _ _ n | polyEstrin _ _ _ n | polyRat _ _ _ _ n =>
    have hn : n ≠ 0 := by simpa [Instr.wellFormed] using h
    simpa [encodeFields, decodeFields, decodePoly, fmtR, onlyIf_eq_ok] using hn
  | polyFma2 => simp [encodeFields, decodeFields, decodePoly, fmtR, onlyIf]
  | sinRef | sinFast | sinFaster | cosRef | cosFast | cosFaster | tanRef | tanFast | tanFaster | tanhRef | tanhFast
  | log2Ref | log2Fast | log2Bit | sqrtRef | sqrtFast =>
    simp [encodeFields, decodeFields, decodeApprox, approxVariant, sinVariant, cosVariant, tanVariant, tanhVariant,
      log2Variant, sqrtVariant, fmtR, onlyIf]
  | fmin | fmax | clip | within => simp [encodeFields, decodeFields, decodeApprox, fmtR, onlyIf]
  | bqLpN | bqLpCs | bqLpD | bqHpN | bqHpCs | bqHpD | bqBpN | bqBpCs | bqBpD | bqBrN | bqBrCs | bqBrD | bqApN | bqApCs
  | bqApD => simp [encodeFields, decodeFields, decodeBiquad, bqForm, fmtR, onlyIf]
  | bqProc | bqBuf | bqOpt | bqOpt2 =>
    simp only [encodeFields, decodeFields, decodeBiquad, selOf_fmtR_selCh, chOf_fmtR_selCh]
    simp [fmtR, onlyIf]
  | bqMbuf | bqMopt | bqMopt2 => simp [encodeFields, decodeFields, decodeBiquad, fmtR, onlyIf]
  | svfReset | svfSetc | svfSetu => simp [encodeFields, decodeFields, decodeSvf, fmtR, onlyIf]
  | svfProcHp | svfProcBp | svfProcLp | svfFrame | svfBufHp | svfBufBp | svfBufLp =>
    simp only [encodeFields, decodeFields, decodeSvf, svfSel, selOf_fmtR_selCh, chOf_fmtR_selCh]
    simp [fmtR, onlyIf]
  | svfMbufHp | svfMbufBp | svfMbufLp =>
    simp [encodeFields, decodeFields, decodeSvf, svfSel, fmtR, chOf, selOf, onlyIf]

/-- Settles O1: the fields of the word are the command's fields, and these decode to the command. -/
theorem decodeOfEncodedCommand : Obligations.DecodeOfEncodedCommand := by
  intro i hi
  rw [decode, encode, fields_word, decodeFields_encodeFields i hi]

/-! ## Fields that decode are the fields of the command -/

/-- The three fields that make `imm16` are read back from it. -/
theorem extractLsb'_imm16Of (f : Fields) :
    (imm16Of f).extractLsb' 12 4 = f.b ∧ (imm16Of f).extractLsb' 8 4 = f.c ∧ (imm16Of f).extractLsb' 0 8 = f.imm8 := by
  have hb := f.b.isLt
  have hc := f.c.isLt
  have hi := f.imm8.isLt
  simp only [imm16Of, ← BitVec.toNat_inj, BitVec.extractLsb'_toNat, BitVec.toNat_ofNat, Nat.shiftRight_eq_div_pow]
  norm_num at *
  omega

theorem selCh_extractLsb' : ∀ k : BitVec 8, selCh (k.extractLsb' 4 4) (k.extractLsb' 0 4).toFin = k := by decide

theorem selCh_selOf_chOf (f : Fields) : selCh (selOf f) (chOf f) = f.imm8 := selCh_extractLsb' f.imm8

theorem csrNumber_of_csrOfNumber {k : BitVec 8} {csr : Csr} (h : csrOfNumber k = some csr) : csrNumber csr = k := by
  unfold csrOfNumber at h
  split at h <;> simp at h <;> subst h <;> rfl

theorem constNumber_of_constOfNumber {k : BitVec 8} {c : ConstSel} (h : constOfNumber k = some c) :
    constNumber c = k := by
  unfold constOfNumber at h
  split at h <;> simp at h <;> subst h <;> rfl

/-- The fields are those of the command, which is well formed. -/
def EncodesTo (i : Instr) (f : Fields) : Prop := i.wellFormed = true ∧ encodeFields i = f

theorem encodesTo_of_onlyIf {ok : Bool} {why : Illegal} {i j : Instr} {f : Fields} (h : onlyIf ok why j = .ok i)
    (hj : ok = true → EncodesTo j f) : EncodesTo i f := by
  obtain ⟨hok, rfl⟩ := onlyIf_eq_ok.1 h
  exact hj hok

theorem decodeMove_sound {f : Fields} {i : Instr} (h : decodeMove f = .ok i) : EncodesTo i f := by
  obtain ⟨op, d, a, b, c, imm8⟩ := f
  unfold decodeMove at h
  split at h
  case h_4 | h_5 | h_6 =>
    cases h
    exact ⟨rfl, by simp_all [encodeFields, fmtI, extractLsb'_imm16Of]⟩
  case h_8 =>
    split at h
    next k hk =>
      exact encodesTo_of_onlyIf h fun hz => ⟨rfl, by simp_all [encodeFields, fmtR, constNumber_of_constOfNumber hk]⟩
    · cases h
  case h_9 =>
    split at h
    next csr hk =>
      split at h
      · exact encodesTo_of_onlyIf h fun hz => ⟨by simpa [Instr.wellFormed, ← BitVec.toFin_inj] using hz,
          by simp_all [encodeFields, fmtR, csrNumber_of_csrOfNumber hk]⟩
      · cases h
    · cases h
  case h_10 => cases h
  case h_2 | h_3 =>
    exact encodesTo_of_onlyIf h fun hz => ⟨rfl, by simp_all [encodeFields, fmtI, extractLsb'_imm16Of]⟩
  case h_1 | h_7 => exact encodesTo_of_onlyIf h fun hz => ⟨rfl, by simp_all [encodeFields, fmtR]⟩

theorem decodePoly_sound {f : Fields} {i : Instr} (h : decodePoly f = .ok i) : EncodesTo i f := by
  obtain ⟨op, d, a, b, c, imm8⟩ := f
  unfold decodePoly at h
  split at h
  case h_4 => exact encodesTo_of_onlyIf h fun hz => ⟨hz, by simp_all [encodeFields, fmtR]⟩
  case h_5 => cases h
  all_goals
    split at h
    · exact encodesTo_of_onlyIf h fun hz => ⟨by simp_all [Instr.wellFormed], by simp_all [encodeFields, fmtR]⟩
    · cases h

/-- What a function's variants encode, with `b` and `c` zero. -/
theorem approxVariant_sound {f : Fields} {i : Instr} {pick : BitVec 8 → Option (XReg → XReg → Instr)}
    (hp : ∀ k v, pick k = some v → ∀ d a, EncodesTo (v d a) (fmtR f.op d a 0 0 k))
    (h : approxVariant f pick = .ok i) : EncodesTo i f := by
  obtain ⟨op, d, a, b, c, imm8⟩ := f
  unfold approxVariant at h
  split at h
  next v hv =>
    refine encodesTo_of_onlyIf h fun hz => ?_
    simp only [Bool.and_eq_true, beq_iff_eq] at hz
    obtain ⟨rfl, rfl⟩ := hz
    exact hp imm8 v hv d.toFin a.toFin
  · cases h

theorem decodeApprox_sound {f : Fields} {i : Instr} (h : decodeApprox f = .ok i) : EncodesTo i f := by
  unfold decodeApprox at h
  split at h
  case h_1 hop | h_2 hop | h_3 hop | h_4 hop | h_5 hop | h_6 hop =>
    refine approxVariant_sound (fun k v hv d a => ?_) h
    simp only [sinVariant, cosVariant, tanVariant, tanhVariant, log2Variant, sqrtVariant] at hv
    rw [hop]
    split at hv <;> cases hv <;> exact ⟨rfl, rfl⟩
  case h_11 => cases h
  all_goals
    obtain ⟨op, d, a, b, c, imm8⟩ := f
    exact encodesTo_of_onlyIf h fun hz => ⟨rfl, by simp_all [encodeFields, fmtR]⟩

theorem bqForm_sound {f : Fields} {i : Instr} {n dir : XReg → XReg → Instr} {cs : XReg → XReg → XReg → Instr}
    (hn : ∀ a b, EncodesTo (n a b) (fmtR f.op 0 a b 0 0))
    (hcs : ∀ a b c, EncodesTo (cs a b c) (fmtR f.op 0 a b c 1))
    (hdir : ∀ a b, EncodesTo (dir a b) (fmtR f.op 0 a b 0 2)) (h : bqForm f n cs dir = .ok i) : EncodesTo i f := by
  obtain ⟨op, d, a, b, c, imm8⟩ := f
  unfold bqForm at h
  split at h
  case h_1 =>
    refine encodesTo_of_onlyIf h fun hz => ?_
    convert hn a.toFin b.toFin <;> simp_all [fmtR]
  case h_2 =>
    refine encodesTo_of_onlyIf h fun hz => ?_
    convert hcs a.toFin b.toFin c.toFin <;> simp_all [fmtR]
  case h_3 =>
    refine encodesTo_of_onlyIf h fun hz => ?_
    convert hdir a.toFin b.toFin <;> simp_all [fmtR]
  case h_4 => cases h

/-- `imm8` with a selector in bits 7:4 and a channel below is what `selCh` makes of them. -/
theorem selCh_eq_imm8 {f : Fields} {s : BitVec 4} (h : selOf f = s) : selCh s (chOf f) = f.imm8 := by
  rw [← h, selCh_selOf_chOf]

theorem decodeBiquad_sound {f : Fields} {i : Instr} (h : decodeBiquad f = .ok i) : EncodesTo i f := by
  unfold decodeBiquad at h
  split at h
  case h_1 hop | h_2 hop | h_3 hop | h_4 hop | h_5 hop =>
    refine bqForm_sound (fun _ _ => ?_) (fun _ _ _ => ?_) (fun _ _ => ?_) h <;> exact ⟨rfl, by rw [hop]; rfl⟩
  case h_6 | h_7 | h_8 | h_9 =>
    refine encodesTo_of_onlyIf h fun hz => ⟨rfl, ?_⟩
    simp only [Bool.and_eq_true, beq_iff_eq] at hz
    have := selCh_eq_imm8 hz.2
    obtain ⟨op, d, a, b, c, imm8⟩ := f
    simp_all [encodeFields, fmtR]
  case h_13 => cases h
  all_goals
    obtain ⟨op, d, a, b, c, imm8⟩ := f
    exact encodesTo_of_onlyIf h fun hz => ⟨rfl, by simp_all [encodeFields, fmtR]⟩

theorem svfSel_sound {f : Fields} {i hp bp lp : Instr} {ok : Bool} (h : svfSel f ok hp bp lp = .ok i)
    (hhp : ok = true → selCh 0 (chOf f) = f.imm8 → EncodesTo hp f)
    (hbp : ok = true → selCh 1 (chOf f) = f.imm8 → EncodesTo bp f)
    (hlp : ok = true → selCh 2 (chOf f) = f.imm8 → EncodesTo lp f) : EncodesTo i f := by
  unfold svfSel at h
  split at h
  case h_1 hs => exact encodesTo_of_onlyIf h fun hz => hhp hz (selCh_eq_imm8 hs)
  case h_2 hs => exact encodesTo_of_onlyIf h fun hz => hbp hz (selCh_eq_imm8 hs)
  case h_3 hs => exact encodesTo_of_onlyIf h fun hz => hlp hz (selCh_eq_imm8 hs)
  case h_4 => cases h
  case h_5 => cases h

theorem decodeSvf_sound {f : Fields} {i : Instr} (h : decodeSvf f = .ok i) : EncodesTo i f := by
  unfold decodeSvf at h
  split at h
  case h_4 | h_6 =>
    refine svfSel_sound h (fun hz hi => ⟨rfl, ?_⟩) (fun hz hi => ⟨rfl, ?_⟩) (fun hz hi => ⟨rfl, ?_⟩)
    all_goals
      obtain ⟨op, d, a, b, c, imm8⟩ := f
      simp_all [encodeFields, fmtR]
  case h_7 =>
    refine svfSel_sound h (fun hz hi => ⟨rfl, ?_⟩) (fun hz hi => ⟨rfl, ?_⟩) (fun hz hi => ⟨rfl, ?_⟩)
    all_goals
      simp only [Bool.and_eq_true, beq_iff_eq] at hz
      rw [hz.2] at hi
      obtain ⟨op, d, a, b, c, imm8⟩ := f
      simp_all [encodeFields, fmtR, selCh]
  case h_5 =>
    refine encodesTo_of_onlyIf h fun hz => ⟨rfl, ?_⟩
    simp only [Bool.and_eq_true, beq_iff_eq] at hz
    have := selCh_eq_imm8 hz.2
    obtain ⟨op, d, a, b, c, imm8⟩ := f
    simp_all [encodeFields, fmtR]
  case h_8 => cases h
  all_goals
    obtain ⟨op, d, a, b, c, imm8⟩ := f
    exact encodesTo_of_onlyIf h fun hz => ⟨rfl, by simp_all [encodeFields, fmtR]⟩

theorem decodeFields_sound {f : Fields} {i : Instr} (h : decodeFields f = .ok i) : EncodesTo i f := by
  unfold decodeFields at h
  split at h
  · exact decodeMove_sound h
  · exact decodePoly_sound h
  · exact decodeApprox_sound h
  · exact decodeBiquad_sound h
  · exact decodeSvf_sound h
  · cases h

/-- Settles O2: the fields of the word are the command's, and the word is its fields. -/
theorem encodeOfDecodedWord : Obligations.EncodeOfDecodedWord := by
  intro w i h
  obtain ⟨hwf, hf⟩ := decodeFields_sound h
  exact ⟨hwf, by rw [encode, hf, word_fields]⟩

end Sys2Proof
end

section
/-! PROOFS. The opcode map (30_encoding.md R116, R117): no word selects two rows; a word that decodes selects its
command's row; a word that selects a row and meets its value constraint decodes. -/

namespace Sys2Proof.Laws.RowMatch

-- One proof at a time: proofs elaborated in parallel each reserve a thread's stack.
set_option Elab.async false

/-- Every command's word selects its command's row. -/
theorem statement (i : Instr) : Statement i := by
  cases i
  exacts [nop, setr _ _, setrh _ _, addri _ _ _, ld _ _ _, st _ _ _, mov _ _, mfc _ _ _, polyHorner _ _ _ _,
    polyFma2 _ _ _, polyEstrin _ _ _ _, polyRat _ _ _ _ _, sinRef _ _, sinFast _ _, sinFaster _ _, cosRef _ _,
    cosFast _ _, cosFaster _ _, tanRef _ _, tanFast _ _, tanFaster _ _, tanhRef _ _, tanhFast _ _, log2Ref _ _,
    log2Fast _ _, log2Bit _ _, sqrtRef _ _, sqrtFast _ _, fmin _ _ _, fmax _ _ _, clip _ _ _ _, within _ _ _ _,
    const _ _, bqLpN _ _, bqLpCs _ _ _, bqLpD _ _, bqHpN _ _, bqHpCs _ _ _, bqHpD _ _, bqBpN _ _, bqBpCs _ _ _,
    bqBpD _ _, bqBrN _ _, bqBrCs _ _ _, bqBrD _ _, bqApN _ _, bqApCs _ _ _, bqApD _ _, bqProc _ _ _, bqBuf _ _ _,
    bqOpt _ _ _, bqOpt2 _ _ _ _, bqMbuf _ _, bqMopt _ _, bqMopt2 _ _ _, svfReset _, svfSetc _ _ _, svfSetu _ _,
    svfProcHp _ _ _, svfProcBp _ _ _, svfProcLp _ _ _, svfFrame _ _ _, svfBufHp _ _ _, svfBufBp _ _ _,
    svfBufLp _ _ _, svfMbufHp _ _, svfMbufBp _ _, svfMbufLp _ _]

end Sys2Proof.Laws.RowMatch

namespace Sys2Proof.Machine

-- One proof at a time: proofs elaborated in parallel each reserve a thread's stack.
set_option Elab.async false

/-! ## No word selects two rows -/

/-- Two patterns that differ where both masks look are never selected together. -/
theorem rows_disjoint_of_ne {p q : OpcodeRow} (h : p.pattern &&& q.mask ≠ q.pattern &&& p.mask) (w : Word) :
    ¬(w &&& p.mask = p.pattern ∧ w &&& q.mask = q.pattern) := by
  rintro ⟨hp, hq⟩
  refine h ?_
  rw [← hp, ← hq, BitVec.and_assoc, BitVec.and_assoc, BitVec.and_comm p.mask]

theorem opcodeRows_differ : opcodeRows.Pairwise fun p q => p.pattern &&& q.mask ≠ q.pattern &&& p.mask := by
  decide +kernel

theorem opcodeRows_disjoint :
    opcodeRows.Pairwise fun p q => ∀ w : Word, ¬(w &&& p.mask = p.pattern ∧ w &&& q.mask = q.pattern) :=
  opcodeRows_differ.imp rows_disjoint_of_ne

/-- The row that a word selects is the only one. -/
theorem row_unique {p q : OpcodeRow} (hp : p ∈ opcodeRows) (hq : q ∈ opcodeRows) {w : Word}
    (hpw : w &&& p.mask = p.pattern) (hqw : w &&& q.mask = q.pattern) : p = q := by
  by_contra hne
  have hsymm : Std.Symm fun p q : OpcodeRow =>
      ∀ w : Word, ¬(w &&& p.mask = p.pattern ∧ w &&& q.mask = q.pattern) :=
    ⟨fun _ _ h w hw => h w hw.symm⟩
  exact opcodeRows_disjoint.forall hp hq hne w ⟨hpw, hqw⟩

/-! ## The value constraints in terms of the fields -/

theorem imm8Field_eq (w : Word) : imm8Field w = (fieldsOf w).imm8.toNat := by
  simp [imm8Field, fieldsOf]

theorem aField_eq (w : Word) : aField w = (fieldsOf w).a.toNat := by
  simp [aField, fieldsOf, Nat.shiftRight_eq_div_pow]

@[simp] theorem imm8Field_wordOf (f : Fields) : imm8Field (wordOf f) = f.imm8.toNat := by rw [imm8Field_eq, fields_word]

@[simp] theorem aField_wordOf (f : Fields) : aField (wordOf f) = f.a.toNat := by rw [aField_eq, fields_word]

theorem csrNumber_mem (csr : Csr) :
    if csr.perChannel then (csrNumber csr).toNat ∈ perChannelCsrNumbers
    else (csrNumber csr).toNat ∈ sharedCsrNumbers := by
  cases csr <;> decide

theorem csrOfNumber_perChannel {k : BitVec 8} (h : k.toNat ∈ perChannelCsrNumbers) :
    ∃ csr, csrOfNumber k = some csr ∧ csr.perChannel = true := by
  obtain ⟨n, hn, rfl⟩ : ∃ n ∈ perChannelCsrNumbers, k = BitVec.ofNat 8 n := ⟨_, h, by simp⟩
  simp only [perChannelCsrNumbers, List.mem_cons, List.not_mem_nil, or_false] at hn
  rcases hn with rfl | rfl | rfl | rfl | rfl | rfl | rfl <;> exact ⟨_, rfl, rfl⟩

theorem csrOfNumber_shared {k : BitVec 8} (h : k.toNat ∈ sharedCsrNumbers) : ∃ csr, csrOfNumber k = some csr := by
  obtain ⟨n, hn, rfl⟩ : ∃ n ∈ sharedCsrNumbers, k = BitVec.ofNat 8 n := ⟨_, h, by simp⟩
  simp only [sharedCsrNumbers, List.mem_cons, List.not_mem_nil, or_false] at hn
  rcases hn with rfl | rfl | rfl | rfl | rfl | rfl | rfl | rfl <;> exact ⟨_, rfl⟩

theorem constOfNumber_of_le {k : BitVec 8} (h : k.toNat ≤ 5) : ∃ c, constOfNumber k = some c := by
  obtain ⟨n, hn, rfl⟩ : ∃ n ≤ 5, k = BitVec.ofNat 8 n := ⟨_, h, by simp⟩
  interval_cases n <;> exact ⟨_, rfl⟩

theorem valueConstraint_mfc (w : Word) : valueConstraint "MFC" w ↔
    imm8Field w ∈ perChannelCsrNumbers ∨ (imm8Field w ∈ sharedCsrNumbers ∧ aField w = 0) := by
  simp [valueConstraint]

theorem valueConstraint_const (w : Word) : valueConstraint "CONST" w ↔ imm8Field w ≤ 5 := by
  simp [valueConstraint]

/-- The word of a well-formed command meets the value constraint of the command's row. -/
theorem valueConstraint_encode (i : Instr) (h : i.wellFormed = true) : valueConstraint i.mnemonic (encode i) := by
  cases i with
  | polyHorner _ _ _ n | polyEstrin _ _ _ n | polyRat _ _ _ _ n =>
    have hn : n ≠ 0 := by simpa [Instr.wellFormed] using h
    simpa [valueConstraint, Instr.mnemonic, encode, encodeFields, fmtR, ← BitVec.toNat_inj] using hn
  | const xd k =>
    refine (valueConstraint_const _).2 ?_
    rw [encode, imm8Field_wordOf]
    change (constNumber k).toNat ≤ 5
    cases k <;> decide
  | mfc xd csr ch =>
    have hok : csr.perChannel = true ∨ ch = 0 := by simpa [Instr.wellFormed] using h
    have hk := csrNumber_mem csr
    refine (valueConstraint_mfc _).2 ?_
    rw [encode, imm8Field_wordOf, aField_wordOf]
    split at hk
    · exact .inl hk
    next hp => exact .inr ⟨hk, by rw [hok.resolve_left hp]; rfl⟩
  | _ => simp [valueConstraint, Instr.mnemonic]

/-! ## A word that selects a row is a command -/

/-- Every word that selects the row and meets its value constraint is a command. -/
def Accepts (row : OpcodeRow) : Prop :=
  ∀ w : Word, w &&& row.mask = row.pattern → valueConstraint row.mnemonic w → ∃ i, decode w = .ok i

/-- A row, field by field. -/
theorem accepts_of_fields {row : OpcodeRow}
    (h : ∀ op d a b c imm8, op &&& (fieldsOf row.mask).op = (fieldsOf row.pattern).op →
      d &&& (fieldsOf row.mask).d = (fieldsOf row.pattern).d →
      a &&& (fieldsOf row.mask).a = (fieldsOf row.pattern).a →
      b &&& (fieldsOf row.mask).b = (fieldsOf row.pattern).b →
      c &&& (fieldsOf row.mask).c = (fieldsOf row.pattern).c →
      imm8 &&& (fieldsOf row.mask).imm8 = (fieldsOf row.pattern).imm8 →
      valueConstraint row.mnemonic (wordOf ⟨op, d, a, b, c, imm8⟩) →
      ∃ i, decodeFields ⟨op, d, a, b, c, imm8⟩ = .ok i) : Accepts row := by
  intro w hw hv
  have hf := congrArg fieldsOf hw
  rw [fieldsOf_and] at hf
  rw [← hf] at h
  rw [← word_fields w] at hv
  exact h _ _ _ _ _ _ rfl rfl rfl rfl rfl rfl hv

@[simp] theorem and_255 (x : BitVec 8) : x &&& 255#8 = x := BitVec.and_allOnes

@[simp] theorem and_15 (x : BitVec 4) : x &&& 15#4 = x := BitVec.and_allOnes

/-- Bits 7:4 of `imm8`, where the mask leaves `ch` free. -/
theorem extractLsb'_of_and_240 {x k : BitVec 8} (h : x &&& 240#8 = k) :
    x.extractLsb' 4 4 = k.extractLsb' 4 4 := by
  rw [← h, BitVec.extractLsb'_and]
  exact (and_15 _).symm

/-- The rows whose opcode is one of unit `u` (92_eei_decisions.md D15). -/
def rowsOfUnit (u : BitVec 4) : List OpcodeRow := opcodeRows.filter fun row => row.pattern.extractLsb' 28 4 == u

theorem mem_rowsOfUnit : ∀ row ∈ opcodeRows, row ∈ rowsOfUnit 0 ∨ row ∈ rowsOfUnit 1 ∨ row ∈ rowsOfUnit 2 ∨
    row ∈ rowsOfUnit 3 ∨ row ∈ rowsOfUnit 4 := by
  decide +kernel

theorem accepts_mfc : Accepts ⟨"MFC", 0x08000000, 0xFF00FF00⟩ := by
  refine accepts_of_fields fun op d a b c imm8 hop _ _ hb hc _ hv => ?_
  simp only [valueConstraint_mfc, imm8Field_wordOf, aField_wordOf] at hv
  simp [fieldsOf] at hop hb hc
  subst hop hb hc
  rcases hv with hk | ⟨hk, ha⟩
  · obtain ⟨csr, hcsr, hp⟩ := csrOfNumber_perChannel hk
    exact ⟨.mfc d.toFin csr a.toFin, by simp [decodeFields, decodeMove, hcsr, hp, onlyIf]⟩
  · obtain ⟨csr, hcsr⟩ := csrOfNumber_shared hk
    obtain rfl : a = 0 := BitVec.eq_of_toNat_eq ha
    exact ⟨.mfc d.toFin csr 0, by simp [decodeFields, decodeMove, hcsr, onlyIf]⟩

theorem accepts_const : Accepts ⟨"CONST", 0x07000000, 0xFF0FFF00⟩ := by
  refine accepts_of_fields fun op d a b c imm8 hop _ ha hb hc _ hv => ?_
  simp only [valueConstraint_const, imm8Field_wordOf] at hv
  simp [fieldsOf] at hop ha hb hc
  subst hop ha hb hc
  obtain ⟨k, hk⟩ := constOfNumber_of_le hv
  exact ⟨.const d.toFin k, by simp [decodeFields, decodeMove, hk, onlyIf]⟩

theorem accepts_move : ∀ row ∈ rowsOfUnit 0, Accepts row := by
  simp [rowsOfUnit, opcodeRows]
  refine ⟨?_, ?_, ?_, ?_, ?_, ?_, ?_, accepts_mfc, accepts_const⟩
  all_goals
    refine accepts_of_fields fun op d a b c imm8 hop _ ha hb hc hi _ => ?_
    simp [fieldsOf] at hop
    simp_all [fieldsOf, decodeFields, decodeMove, onlyIf]

theorem toNat_eq_zero_iff (x : BitVec 8) : x.toNat = 0 ↔ x = 0#8 := by
  rw [← BitVec.toNat_inj, BitVec.toNat_ofNat, Nat.zero_mod]

theorem accepts_poly : ∀ row ∈ rowsOfUnit 1, Accepts row := by
  simp [rowsOfUnit, opcodeRows]
  refine ⟨?_, ?_, ?_, ?_⟩
  all_goals
    refine accepts_of_fields fun op d a b c imm8 hop _ _ _ hc hi hv => ?_
    simp [fieldsOf] at hop
    simp only [valueConstraint, imm8Field_wordOf, ne_eq, toNat_eq_zero_iff] at hv
    simp_all [fieldsOf, decodeFields, decodePoly, onlyIf]

theorem accepts_approx : ∀ row ∈ rowsOfUnit 2, Accepts row := by
  simp [rowsOfUnit, opcodeRows]
  refine ⟨?_, ?_, ?_, ?_, ?_, ?_, ?_, ?_, ?_, ?_, ?_, ?_, ?_, ?_, ?_, ?_, ?_, ?_, ?_, ?_⟩
  all_goals
    refine accepts_of_fields fun op d a b c imm8 hop _ _ hb hc hi _ => ?_
    simp [fieldsOf] at hop
    simp_all [fieldsOf, decodeFields, decodeApprox, approxVariant, sinVariant, cosVariant, tanVariant, tanhVariant,
      log2Variant, sqrtVariant, onlyIf]

theorem accepts_biquad : ∀ row ∈ rowsOfUnit 3, Accepts row := by
  simp [rowsOfUnit, opcodeRows]
  refine ⟨?_, ?_, ?_, ?_, ?_, ?_, ?_, ?_, ?_, ?_, ?_, ?_, ?_, ?_, ?_, ?_, ?_, ?_, ?_, ?_, ?_, ?_⟩
  case refine_16 | refine_17 | refine_18 | refine_19 =>
    refine accepts_of_fields fun op d a b c imm8 hop hd _ hb hc hi _ => ?_
    have hsel := extractLsb'_of_and_240 hi
    simp [fieldsOf] at hop
    simp_all [fieldsOf, decodeFields, decodeBiquad, selOf, onlyIf]
  all_goals
    refine accepts_of_fields fun op d a b c imm8 hop hd _ hb hc hi _ => ?_
    simp [fieldsOf] at hop
    simp_all [fieldsOf, decodeFields, decodeBiquad, bqForm, onlyIf]

theorem accepts_svf : ∀ row ∈ rowsOfUnit 4, Accepts row := by
  simp [rowsOfUnit, opcodeRows]
  refine ⟨?_, ?_, ?_, ?_, ?_, ?_, ?_, ?_, ?_, ?_, ?_, ?_, ?_⟩
  case refine_4 | refine_5 | refine_6 | refine_7 | refine_8 | refine_9 | refine_10 =>
    refine accepts_of_fields fun op d a b c imm8 hop hd _ hb hc hi _ => ?_
    have hsel := extractLsb'_of_and_240 hi
    simp [fieldsOf] at hop
    simp_all [fieldsOf, decodeFields, decodeSvf, svfSel, selOf, onlyIf]
  all_goals
    refine accepts_of_fields fun op d a b c imm8 hop hd _ hb hc hi _ => ?_
    simp [fieldsOf] at hop
    simp_all [fieldsOf, decodeFields, decodeSvf, svfSel, selOf, chOf, onlyIf]

theorem accepts_of_mem {row : OpcodeRow} (h : row ∈ opcodeRows) : Accepts row := by
  rcases mem_rowsOfUnit row h with h | h | h | h | h
  · exact accepts_move row h
  · exact accepts_poly row h
  · exact accepts_approx row h
  · exact accepts_biquad row h
  · exact accepts_svf row h

/-- Settles O3: a command's word selects the command's row and no other, and a word that selects a row is a command. -/
theorem decoderAcceptsExactlyTheTable : Obligations.DecoderAcceptsExactlyTheTable := by
  refine ⟨rfl, opcodeRows_disjoint, fun w => ?_⟩
  cases hw : decode w with
  | ok i =>
    obtain ⟨hwf, rfl⟩ := encodeOfDecodedWord w i hw
    obtain ⟨row, hmem, hname, hsel⟩ := Laws.RowMatch.statement i
    exact .inl ⟨i, rfl, row, ⟨hmem, hsel, hname ▸ valueConstraint_encode i hwf, hname⟩,
      fun _ ⟨hq, hqsel, _⟩ => row_unique hq hmem hqsel hsel⟩
  | error why =>
    refine .inr ⟨⟨why, rfl⟩, fun ⟨row, hmem, hsel, hv⟩ => ?_⟩
    obtain ⟨i, hi⟩ := accepts_of_mem hmem w hsel hv
    rw [hw] at hi
    cases hi

/-! ## Single words -/

/-- Settles O4: the decoder run on each word. -/
theorem sampleWordsDecode : Obligations.SampleWordsDecode := by
  refine ⟨?_, ?_, ?_, ?_, ?_, ?_, ?_, ?_, ?_, ?_, ?_, ?_, ?_, ?_, ?_, ?_, ?_⟩ <;> rfl

/-- Opcode 0x00 is NOP's alone. -/
theorem decodeFields_op_zero {f : Fields} {i : Instr} (hop : f.op = 0) (h : decodeFields f = .ok i) : i = .nop := by
  obtain ⟨-, hf⟩ := decodeFields_sound h
  rw [← hf] at hop
  cases i with
  | nop => rfl
  | _ => cases hop

/-- Settles O25: a word of opcode 0 that decodes is the word of NOP, which is 0. -/
theorem nopChangesNothing : Obligations.NopChangesNothing := by
  refine ⟨fun s => rfl, rfl, fun w hop hne => ?_⟩
  cases hw : decode w with
  | error why => exact ⟨why, rfl⟩
  | ok i =>
    have hop0 : (fieldsOf w).op = 0 := by
      apply BitVec.eq_of_toNat_eq
      have := w.isLt
      simp [fieldsOf, Nat.shiftRight_eq_div_pow]
      omega
    obtain ⟨-, henc⟩ := encodeOfDecodedWord w i hw
    rw [decodeFields_op_zero hop0 hw] at henc
    exact absurd henc.symm hne

end Sys2Proof.Machine
end

section
/-! PROOFS. What one step can do (10_state.md R53; 20_memory.md R96; 60_exceptions.md R322): a reset, a command's turn, or a
transaction of the host that leaves the registers and the fault registers alone. -/

namespace Sys2Proof.Machine

-- One proof at a time: proofs elaborated in parallel each reserve a thread's stack.
set_option Elab.async false

/-! ## A command's turn -/

theorem CommandTurn.run_eq {s u : State} (h : CommandTurn s u) : s.run = .busy := h.1

/-- The state in which a command runs differs from the state of the step in the host's list alone. -/
theorem CommandTurn.eq_withHost {s u : State} (h : CommandTurn s u) : u = { s with host := u.host } := by
  obtain ⟨-, ⟨-, rfl⟩ | ⟨a, n, rest, -, rfl⟩ | ⟨a, n, v, rest, -, rfl⟩ | ⟨rest, -, rfl⟩⟩ := h <;> rfl

theorem step_of_commandTurn {s u : State} (hb : buildLegal s.build = true) (h : CommandTurn s u) :
    step s = runCommand u := by
  obtain ⟨hr, hh⟩ := h
  rw [step_busy hb hr, stepBusy]
  rcases hh with ⟨hh, rfl⟩ | ⟨a, n, rest, hh, rfl⟩ | ⟨a, n, v, rest, hh, rfl⟩ | ⟨rest, hh, rfl⟩
  · rw [hh]
  · rw [hh]
  · rw [hh]
  · rw [hh, ← State.popHost_eq hh]

theorem step_withFetchWord {s : State} (hb : buildLegal s.build = true) (w : Word) :
    step (s.withFetchWord 32 w.toNat) = runCommand { s with run := .busy, cmd := w, host := [] } := by
  have hw : BitVec.ofNat 32 (w.toNat % 2 ^ 32) = w := by rw [Nat.mod_eq_of_lt w.isLt, BitVec.ofNat_toNat, BitVec.setWidth_eq]
  rw [State.withFetchWord, placeCommand, hw]
  exact step_of_commandTurn hb ⟨rfl, .inl ⟨rfl, rfl⟩⟩

/-- Settles O5: the turn runs the word in CMD, and the word placed there has its turn at once. -/
theorem stepRunsTheDecodedCommand : Obligations.StepRunsTheDecodedCommand := by
  refine ⟨fun s u i hb hu hi => ?_, fun s w i hb hi => ?_⟩
  · have hcmd : u.cmd = s.cmd := by rw [hu.eq_withHost]
    rw [step_of_commandTurn hb hu, runCommand_of_ok (hcmd ▸ hi)]
  · rw [step_withFetchWord hb w]
    exact runCommand_of_ok (s := { s with run := .busy, cmd := w, host := [] }) hi

/-- Settles O6: the turn of a word that is not a command is the fault entry of E_ILLEGAL. -/
theorem illegalWordFaults : Obligations.IllegalWordFaults := by
  intro s u why hb hu hw
  have hcmd : u.cmd = s.cmd := by rw [hu.eq_withHost]
  rw [step_of_commandTurn hb hu, runCommand_of_error (hcmd ▸ hw), ← hcmd]
  rfl

/-! ## The host's transactions -/

/-- From `s` to `t` the host's side, DMEM and, when a CMD write is accepted, CMD and the run state may change. -/
structure HostActs (s t : State) : Prop where
  frame : t = { s with
    dmem := t.dmem, run := t.run, cmd := t.cmd, waiting := t.waiting, host := t.host, hostData := t.hostData
    free := t.free }
  run : t.run = s.run ∨ (s.run = .idle ∧ t.run = .busy)

theorem hostActs_holdWrite (s : State) (w : Word) : HostActs s (s.popHost.holdWrite w) := by
  unfold State.holdWrite
  split
  · exact ⟨rfl, .inl rfl⟩
  · split
    · exact ⟨rfl, .inl rfl⟩
    · exact ⟨rfl, .inl rfl⟩

theorem hostActs_hostRead (s : State) (a : Word) (n : HostSize) : HostActs s (s.popHost.hostRead a n) := by
  rw [State.hostRead_frame]
  exact ⟨rfl, .inl rfl⟩

theorem hostActs_hostWrite (s : State) (a : Word) (n : HostSize) (v : BitVec 64) :
    HostActs s (s.popHost.hostWrite a n v) := by
  rw [State.hostWrite_frame s.popHost a n v]
  exact ⟨rfl, .inl rfl⟩

/-- What a step can be. -/
inductive StepIs (s : State) : State → Prop where
  | reset (hh : s.host.head? = some .reset) (hw : s.run = .busy ∨ s.waiting = none) : StepIs s s.popHost.hostReset
  | command {u t : State} (i : Instr) (hu : CommandTurn s u) (hi : decode s.cmd = .ok i)
      (ht : exec i { u with run := .idle } = .next t) : StepIs s t
  | illegal {u : State} (hu : CommandTurn s u) : StepIs s (({ u with run := .idle } : State).raise ⟨.illegal, 0⟩)
  | host {t : State} (ht : HostActs s t) : StepIs s t

theorem stepIs_of_commandTurn {s u t : State} (hu : CommandTurn s u) (h : runCommand u = .next t) : StepIs s t := by
  have hcmd : u.cmd = s.cmd := by rw [hu.eq_withHost]
  cases hd : decode u.cmd with
  | ok i =>
    rw [runCommand_of_ok hd] at h
    exact .command i hu (hcmd ▸ hd) h
  | error why =>
    rw [runCommand_of_error hd] at h
    cases h
    exact .illegal hu

theorem stepBusy_is {s t : State} (hr : s.run = .busy) (h : stepBusy s = .next t) : StepIs s t := by
  unfold stepBusy at h
  split at h
  case h_1 hh => cases h; exact .reset (by rw [hh]; rfl) (.inl hr)
  case h_2 hh => cases h; exact .host ⟨rfl, .inl rfl⟩
  case h_3 w _ hh => cases h; exact .host (hostActs_holdWrite s w)
  case h_4 rest hh => exact stepIs_of_commandTurn ⟨hr, .inr (.inr (.inr ⟨rest, hh, State.popHost_eq hh⟩))⟩ h
  case h_5 a n rest hh => exact stepIs_of_commandTurn ⟨hr, .inr (.inl ⟨a, n, rest, hh, rfl⟩)⟩ h
  case h_6 a n v rest hh => exact stepIs_of_commandTurn ⟨hr, .inr (.inr (.inl ⟨a, n, v, rest, hh, rfl⟩))⟩ h
  case h_7 hh => exact stepIs_of_commandTurn ⟨hr, .inl ⟨hh, rfl⟩⟩ h

theorem stepIdle_is {s t : State} (hr : s.run = .idle) (h : stepIdle s = .next t) : StepIs s t := by
  unfold stepIdle at h
  split at h
  · cases h; exact .host ⟨rfl, .inr ⟨hr, rfl⟩⟩
  next hw =>
    split at h <;> cases h
    case h_1 => exact .host ⟨rfl, .inl rfl⟩
    case h_2 hh => exact .reset (by rw [hh]; rfl) (.inr hw)
    case h_3 => exact .host ⟨rfl, .inr ⟨hr, rfl⟩⟩
    case h_4 => exact .host (hostActs_hostRead s _ _)
    case h_5 => exact .host (hostActs_hostWrite s _ _ _)
    case h_6 => exact .host ⟨rfl, .inl rfl⟩
    case h_7 => exact .host ⟨rfl, .inl rfl⟩

theorem stepFault_is {s t : State} (h : stepFault s = .next t) : StepIs s t := by
  unfold stepFault at h
  split at h
  · cases h; exact .host ⟨rfl, .inl rfl⟩
  next hw =>
    split at h <;> cases h
    case h_1 => exact .host ⟨rfl, .inl rfl⟩
    case h_2 hh => exact .reset (by rw [hh]; rfl) (.inr hw)
    case h_3 => exact .host ⟨rfl, .inl rfl⟩
    case h_4 => exact .host (hostActs_hostRead s _ _)
    case h_5 => exact .host (hostActs_hostWrite s _ _ _)
    case h_6 => exact .host ⟨rfl, .inl rfl⟩
    case h_7 => exact .host ⟨rfl, .inl rfl⟩

/-- Every step is one of the four. -/
theorem step_is {s t : State} (h : step s = .next t) : StepIs s t := by
  have hb := buildLegal_of_step h
  cases hr : s.run with
  | idle => exact stepIdle_is hr (step_idle hb hr ▸ h)
  | busy => exact stepBusy_is hr (step_busy hb hr ▸ h)
  | fault => exact stepFault_is (step_fault hb hr ▸ h)

end Sys2Proof.Machine
end

section
/-! PROOFS. What one command can do (30_encoding.md R122; 60_exceptions.md R320): a fault entry, or an effect on the parts of
the state that the spec lists it as a writer of (10_state.md R42, R46 to R49; 20_memory.md R81). -/

namespace Sys2Proof.Machine

-- One proof at a time: proofs elaborated in parallel each reserve a thread's stack.
set_option Elab.async false

/-! ## No check of a well-formed command raises E_ILLEGAL -/

/-- What the check raises is not E_ILLEGAL, which decoding alone raises (30_encoding.md R118). -/
def NeverIllegal (c : Option Raised) : Prop := ∀ e, c = some e → e.cause ≠ .illegal

theorem neverIllegal_none : NeverIllegal none := nofun

theorem neverIllegal_some {e : Raised} (h : e.cause ≠ .illegal) : NeverIllegal (some e) := by
  rintro _ ⟨⟩
  exact h

theorem neverIllegal_checkRegion (b : Build) (base : Word) (count size align : Nat) :
    NeverIllegal (checkRegion b base count size align) := by
  intro e he
  obtain ⟨rfl | rfl, -⟩ := checkRegion_cases _ _ _ _ _ _ he
  · nofun
  · nofun

theorem neverIllegal_checkElems (b : Build) (base : Word) (count : Nat) : NeverIllegal (checkElems b base count) :=
  neverIllegal_checkRegion _ _ _ _ _

theorem neverIllegal_checkTable (b : Build) (base : Word) : NeverIllegal (checkTable b base) :=
  neverIllegal_checkRegion _ _ _ _ _

theorem neverIllegal_checkChannel (b : Build) (c : Chan) : NeverIllegal (checkChannel b c) := by
  unfold checkChannel
  split
  · exact neverIllegal_none
  · exact neverIllegal_some nofun

theorem neverIllegal_checkCount (n : Word) : NeverIllegal (checkCount n) := by
  unfold checkCount
  split
  · exact neverIllegal_some nofun
  · exact neverIllegal_none

theorem neverIllegal_checkOverlap (i o : Word) (len : Nat) : NeverIllegal (checkOverlap i o len) := by
  unfold checkOverlap
  split
  · exact neverIllegal_some nofun
  · exact neverIllegal_none

theorem neverIllegal_checkCsr {b : Build} {csr : Csr} {c : Chan} (h : (csr.perChannel || c == 0) = true) :
    NeverIllegal (checkCsr b csr c) := by
  unfold checkCsr
  split
  · exact neverIllegal_checkChannel b c
  next hp => simp_all [neverIllegal_none]

theorem neverIllegal_firstRaised {cs : List (Option Raised)} (h : ∀ c ∈ cs, NeverIllegal c) :
    NeverIllegal (firstRaised cs) :=
  fun e he => h _ (firstRaised_mem cs e he) e rfl

theorem neverIllegal_firstRaised_map {α : Type} (ps : List α) {chk : α → Option Raised} (h : ∀ p, NeverIllegal (chk p)) :
    NeverIllegal (firstRaised (ps.map chk)) :=
  neverIllegal_firstRaised fun c hc => by
    obtain ⟨p, -, rfl⟩ := List.mem_map.1 hc
    exact h p

theorem neverIllegal_pair {c d : Option Raised} (hc : NeverIllegal c) (hd : NeverIllegal d) :
    NeverIllegal (firstRaised [c, d]) :=
  neverIllegal_firstRaised (by simp [hc, hd])

/-! ## A command faults or completes -/

/-- `t` is `s` but for the parts that the spec lists `i` as a writer of. -/
def OnlyWrites (i : Instr) (s t : State) : Prop :=
  t = { s with
    x := if writesX i then t.x else s.x
    r := if writesR i then t.r else s.r
    bq := if writesBq i then t.bq else s.bq
    bqd := if writesDelay i then t.bqd else s.bqd
    svf := if writesSvfCoef i then t.svf else s.svf
    svfc := if writesSvfChan i then t.svfc else s.svfc
    dmem := if writesDmem i then t.dmem else s.dmem }

/-- How a command ends. -/
inductive ExecIs (i : Instr) (s : State) : State → Prop where
  | faults (e : Raised) (he : i.wellFormed = true → e.cause ≠ .illegal) : ExecIs i s (s.raise e)
  | completes {t : State} (ht : OnlyWrites i s t) : ExecIs i s t

theorem execIs_next {i : Instr} {s u : State} (hu : OnlyWrites i s u) : NextHas (ExecIs i s) (.next u) :=
  nextHas_next (.completes hu)

theorem execIs_checked {i : Instr} {s u : State} {c : Option Raised} (hc : i.wellFormed = true → NeverIllegal c)
    (hu : OnlyWrites i s u) : NextHas (ExecIs i s) (s.checked c u) := by
  intro t ht
  rcases s.checked_cases u t c ht with ⟨-, rfl⟩ | ⟨e, he, rfl⟩
  · exact .completes hu
  · exact .faults e fun hw => hc hw e he

theorem sameButDelayDmem_foldl {α : Type} {g : State → α → State} (ps : List α) (s : State)
    (h : ∀ u p, SameButDelayDmem u (g u p)) : SameButDelayDmem s (ps.foldl g s) :=
  List.foldlRecOn ps g rfl fun u hu p _ => by
    have hp := h u p
    unfold SameButDelayDmem at *
    rw [hp, hu]

theorem sameButSvfDmem_foldl {α : Type} {g : State → α → State} (ps : List α) (s : State)
    (h : ∀ u p, SameButSvfDmem u (g u p)) : SameButSvfDmem s (ps.foldl g s) :=
  List.foldlRecOn ps g rfl fun u hu p _ => by
    have hp := h u p
    unfold SameButSvfDmem at *
    rw [hp, hu]

theorem svfReset_foldl (s : State) (cs : List Chan) (v : SvfChan) :
    cs.foldl (fun u c => u.setSvf c v) s = { s with svfc := (cs.foldl (fun u c => u.setSvf c v) s).svfc } :=
  List.foldlRecOn cs _ (motive := fun u : State => u = { s with svfc := u.svfc }) rfl fun u hu c _ => by rw [hu]; rfl

theorem exec_is (i : Instr) (s : State) : NextHas (ExecIs i s) (exec i s) := by
  cases i with
  | nop | setr | setrh | addri | mov | sinRef | sinFast | sinFaster | cosRef | cosFast | cosFaster | tanRef | tanFast
  | tanFaster | tanhRef | tanhFast | log2Ref | log2Fast | log2Bit | sqrtRef | sqrtFast | fmin | fmax | clip | within
  | const | bqLpN | bqLpCs | bqLpD | bqHpN | bqHpCs | bqHpD | bqBpN | bqBpCs | bqBpD | bqBrN | bqBrCs | bqBrD | bqApN
  | bqApCs | bqApD | svfSetu => exact execIs_next rfl
  | ld | st | polyHorner | polyFma2 | polyEstrin => exact execIs_checked (fun _ => neverIllegal_checkRegion _ _ _ _ _) rfl
  | polyRat =>
    exact execIs_checked (fun _ => neverIllegal_firstRaised (by simp [neverIllegal_checkElems])) rfl
  | mfc xd csr ch => exact execIs_checked neverIllegal_checkCsr rfl
  | bqProc | svfProcHp | svfProcBp | svfProcLp => exact execIs_checked (fun _ => neverIllegal_checkChannel _ _) rfl
  | bqBuf | bqOpt | bqOpt2 | svfFrame | svfBufHp | svfBufBp | svfBufLp =>
    exact execIs_checked (fun _ => neverIllegal_firstRaised (by simp [neverIllegal_checkElems,
      neverIllegal_checkChannel, neverIllegal_checkCount, neverIllegal_checkOverlap])) rfl
  | bqMbuf | bqMopt =>
    exact execIs_checked (fun _ => neverIllegal_firstRaised (by simp [neverIllegal_checkTable, checkBuffers,
      neverIllegal_firstRaised_map, neverIllegal_checkElems, neverIllegal_checkCount]))
      (sameButDelayDmem_foldl _ s fun _ _ => rfl)
  | bqMopt2 rd ra rb =>
    have hregions := neverIllegal_firstRaised_map (s.pointerPairs (s.getR ra) (s.getR rd)) fun p =>
      neverIllegal_pair (neverIllegal_checkElems s.build p.2.1 (s.getR rb).toNat)
        (neverIllegal_checkElems s.build p.2.2 (s.getR rb).toNat)
    have hoverlaps := neverIllegal_firstRaised_map (s.pointerPairs (s.getR ra) (s.getR rd)) fun p =>
      neverIllegal_checkOverlap p.2.1 p.2.2 ((s.getR rb).toNat * eb s.fmt)
    exact execIs_checked (fun _ => neverIllegal_firstRaised (by simp [hregions, hoverlaps, neverIllegal_checkTable,
      neverIllegal_checkCount])) (sameButDelayDmem_foldl _ s fun _ _ => rfl)
  | svfMbufHp | svfMbufBp | svfMbufLp =>
    exact execIs_checked (fun _ => neverIllegal_firstRaised (by simp [neverIllegal_checkTable,
      checkBuffers, neverIllegal_firstRaised_map, neverIllegal_checkElems])) (sameButSvfDmem_foldl _ s fun _ _ => rfl)
  | svfReset xa =>
    exact execIs_next (congrArg (fun u : State => ({ u with svf := ⟨zero s.fmt, zero s.fmt, s.getX xa⟩ } : State))
      (svfReset_foldl s (channels s.build) (svfZero s.fmt)))
  | svfSetc rd xa xb =>
    simp only [exec, execSvfSetc]
    split
    · exact execIs_next rfl
    · exact execIs_next rfl

end Sys2Proof.Machine
end

section
/-! PROOFS. What every command and every step leaves alone: the precise fault (60_exceptions.md R320, R321), the writer lists
(10_state.md R42 to R49), CFG (R55), the fault registers (R52), and FAULT itself until a reset (60_exceptions.md R322, R323). -/

namespace Sys2Proof.Machine

-- One proof at a time: proofs elaborated in parallel each reserve a thread's stack.
set_option Elab.async false

/-! ## Commands -/

theorem OnlyWrites.run {i : Instr} {s t : State} (h : OnlyWrites i s t) : t.run = s.run := by rw [h]

theorem OnlyWrites.build {i : Instr} {s t : State} (h : OnlyWrites i s t) : t.build = s.build := by rw [h]

theorem OnlyWrites.faultRegs {i : Instr} {s t : State} (h : OnlyWrites i s t) :
    t.cause = s.cause ∧ t.finfo = s.finfo ∧ t.fcmd = s.fcmd := by
  rw [h]
  exact ⟨rfl, rfl, rfl⟩

theorem causeCode_range {c : Cause} (h : c ≠ .illegal) : 2 ≤ (causeCode c).toNat ∧ (causeCode c).toNat ≤ 6 := by
  cases c with
  | illegal => exact absurd rfl h
  | channel | count | align | access | overlap => decide

/-- Settles O8: a command that completes leaves the run state, so one that ends in FAULT ended by fault entry. -/
theorem faultsArePrecise : Obligations.FaultsArePrecise := by
  intro i s t hi hs ht hf
  cases exec_is i s t ht with
  | faults e he =>
    obtain ⟨hlo, hhi⟩ := causeCode_range (he hi)
    exact ⟨causeCode e.cause, e.info, hlo, hhi, rfl⟩
  | completes hw =>
    rw [hw.run, hs] at hf
    cases hf

theorem execSvfSetc_fs {rd : RReg} {xa xb : XReg} {s : State} :
    NextHas (fun t => t.svf.fs = s.svf.fs) (execSvfSetc rd xa xb s) := by
  by_cases h : svfReject s.fmt (svfF1 s.build s.svf.fs (s.getX xa)) (svfQ1 s.build (s.getX xb)) = true
  · simp only [execSvfSetc, h, if_true]
    exact nextHas_next rfl
  · simp only [execSvfSetc, h]
    exact nextHas_next rfl

/-- Of the commands that write the state-variable coefficients only SVF.RESET writes the sample rate (10_state.md R48). -/
theorem exec_fs_changes {i : Instr} {s t : State} (ht : exec i s = .next t) (hw : writesSvfCoef i = true)
    (h : t.svf.fs ≠ s.svf.fs) : ∃ xa, i = .svfReset xa := by
  cases i with
  | svfReset xa => exact ⟨xa, rfl⟩
  | svfSetc => exact absurd (execSvfSetc_fs t ht) h
  | svfSetu =>
    cases ht
    exact absurd rfl h
  | _ => cases hw

theorem eq_true_of_ne_ite {α : Type} {c : Bool} {a b : α} (h : (if c then a else b) ≠ b) : c = true := by
  cases c with
  | true => rfl
  | false => exact absurd rfl h

theorem OnlyWrites.changes {i : Instr} {s t : State} (h : OnlyWrites i s t) :
    (t.x ≠ s.x → writesX i = true) ∧ (t.r ≠ s.r → writesR i = true) ∧ (t.bq ≠ s.bq → writesBq i = true) ∧
      (t.bqd ≠ s.bqd → writesDelay i = true) ∧ (t.svf ≠ s.svf → writesSvfCoef i = true) ∧
      (t.svfc ≠ s.svfc → writesSvfChan i = true) ∧ (t.dmem ≠ s.dmem → writesDmem i = true) := by
  rw [h]
  exact ⟨eq_true_of_ne_ite, eq_true_of_ne_ite, eq_true_of_ne_ite, eq_true_of_ne_ite, eq_true_of_ne_ite,
    eq_true_of_ne_ite, eq_true_of_ne_ite⟩

theorem OnlyWrites.keeps {i : Instr} {s t : State} (h : OnlyWrites i s t) :
    t.cmd = s.cmd ∧ t.waiting = s.waiting ∧ t.build = s.build ∧ t.host = s.host ∧ t.hostData = s.hostData ∧
      t.free = s.free := by
  rw [h]
  exact ⟨rfl, rfl, rfl, rfl, rfl, rfl⟩

/-- Settles O9. -/
theorem onlyTheListedCommandsWrite : Obligations.OnlyTheListedCommandsWrite := by
  intro i s t ht
  cases exec_is i s t ht with
  | faults e =>
    exact ⟨absurd rfl, absurd rfl, absurd rfl, absurd rfl, absurd rfl, absurd rfl, absurd rfl, absurd rfl, rfl, rfl, rfl,
      rfl, rfl, rfl⟩
  | completes hw =>
    obtain ⟨hx, hr, hbq, hbqd, hsvf, hsvfc, hdmem⟩ := hw.changes
    have hfs (h : t.svf.fs ≠ s.svf.fs) : ∃ xa, i = .svfReset xa := exec_fs_changes ht (hsvf fun he => h (by rw [he])) h
    exact ⟨hx, hr, hbq, hbqd, hsvf, hfs, hsvfc, hdmem, hw.keeps⟩

/-! ## Steps -/

theorem StepIs.build {s t : State} (h : StepIs s t) : t.build = s.build := by
  cases h with
  | reset => rfl
  | command i hu _ ht =>
    rw [hu.eq_withHost] at ht
    cases exec_is i _ t ht with
    | faults e => rfl
    | completes hw => exact hw.build
  | illegal hu =>
    rw [hu.eq_withHost]
    rfl
  | host ht => rw [ht.frame]

/-- Settles O17. -/
theorem buildNeverChanges : Obligations.BuildNeverChanges := by
  intro s t ht
  have hb := (step_is ht).build
  exact ⟨hb, congrArg cfgWord hb⟩

theorem faultRegsLegal_raise (s : State) (e : Raised) : FaultRegsLegal (s.raise e) :=
  ⟨fun _ => ⟨e.cause, rfl⟩, absurd rfl⟩

theorem FaultRegsLegal.of_not_fault {s t : State} (h : FaultRegsLegal s) (hs : s.run ≠ .fault) (ht : t.run ≠ .fault)
    (hr : t.cause = s.cause ∧ t.finfo = s.finfo ∧ t.fcmd = s.fcmd) : FaultRegsLegal t := by
  obtain ⟨hc, hi, hf⟩ := hr
  refine ⟨fun hfault => absurd hfault ht, fun _ => ?_⟩
  rw [hc, hi, hf]
  exact h.2 hs

/-- Settles O16: a fault entry records one of the six codes, and only a reset leaves FAULT. -/
theorem faultRegistersStayLegal : Obligations.FaultRegistersStayLegal := by
  intro s t hs ht
  cases step_is ht with
  | reset => exact ⟨nofun, fun _ => ⟨rfl, rfl, rfl⟩⟩
  | @command u _ i hu _ hx =>
    have hbusy : s.run ≠ .fault := by rw [hu.run_eq]; nofun
    cases exec_is i _ t hx with
    | faults e => exact faultRegsLegal_raise _ e
    | completes hw =>
      refine hs.of_not_fault hbusy (by rw [hw.run]; nofun) ?_
      rw [hu.eq_withHost] at hw
      exact hw.faultRegs
  | illegal => exact faultRegsLegal_raise _ _
  | host hh =>
    have hregs : t.cause = s.cause ∧ t.finfo = s.finfo ∧ t.fcmd = s.fcmd := by rw [hh.frame]; exact ⟨rfl, rfl, rfl⟩
    rcases hh.run with hrun | ⟨hidle, hbusy⟩
    · unfold FaultRegsLegal
      rw [hrun, hregs.1, hregs.2.1, hregs.2.2]
      exact hs
    · exact hs.of_not_fault (by rw [hidle]; nofun) (by rw [hbusy]; nofun) hregs

/-! ## In FAULT -/

theorem State.irq_eq_true_iff (s : State) : s.irq = true ↔ s.run = .fault := by
  unfold State.irq
  cases s.run with
  | idle | busy | fault => decide

theorem irq_eq_statusBit (s : State) : s.irq = (s.readSys .status).getLsbD 1 := by
  change (s.run == .fault) = (statusWord s.run).getLsbD 1
  cases s.run with
  | idle | busy | fault => decide

/-- In FAULT a step is a reset, with no CMD write waiting, or a transaction of the host after which it is in FAULT. -/
theorem step_in_fault {s t : State} (hf : s.run = .fault) (ht : step s = .next t) :
    (s.waiting = none ∧ s.host.head? = some .reset) ∨ (HostActs s t ∧ t.run = .fault) := by
  cases step_is ht with
  | reset hh hw =>
    rw [hf] at hw
    exact .inl ⟨hw.resolve_left nofun, hh⟩
  | command i hu | illegal hu =>
    have := hu.run_eq
    simp [hf] at this
  | host hh =>
    have hrun : t.run = .fault := by
      rcases hh.run with hrun | ⟨hidle, -⟩
      · rw [hrun, hf]
      · rw [hf] at hidle
        cases hidle
    exact .inr ⟨hh, hrun⟩

/-- Settles O24: in FAULT every step but a reset leaves the run state. -/
theorem irqIsTheFaultBit : Obligations.IrqIsTheFaultBit := by
  refine ⟨irq_eq_statusBit, fun s t ht hs hlow => ?_⟩
  rcases step_in_fault ((s.irq_eq_true_iff).1 hs) ht with hreset | ⟨-, hrun⟩
  · exact hreset
  · rw [(t.irq_eq_true_iff).2 hrun] at hlow
    cases hlow

theorem HostActs.registers {s t : State} (h : HostActs s t) :
    t.cause = s.cause ∧ t.finfo = s.finfo ∧ t.fcmd = s.fcmd ∧ t.x = s.x ∧ t.r = s.r ∧ t.bq = s.bq ∧ t.bqd = s.bqd ∧
      t.svf = s.svf ∧ t.svfc = s.svfc := by
  rw [h.frame]
  exact ⟨rfl, rfl, rfl, rfl, rfl, rfl, rfl, rfl, rfl⟩

theorem step_hostReadSys {s : State} {g : SysReg} {rest : List HostTx} (hb : buildLegal s.build = true)
    (hh : s.host = .readSys g :: rest) (hw : s.run = .busy ∨ s.waiting = none) :
    step s = .next (s.popHost.hostReadSys g) := by
  cases hr : s.run with
  | busy => rw [step_busy hb hr, stepBusy, hh]
  | idle =>
    have hnone : s.waiting = none := hw.resolve_left (by simp [hr])
    rw [step_idle hb hr, stepIdle, hnone, hh]
  | fault =>
    have hnone : s.waiting = none := hw.resolve_left (by simp [hr])
    rw [step_fault hb hr, stepFault, hnone, hh]

theorem step_fault_issue {s : State} {w : Word} {rest : List HostTx} (hb : buildLegal s.build = true) (hf : s.run = .fault)
    (hw : s.waiting = none) (hh : s.host = .issue w :: rest) : step s = .next s.popHost := by
  rw [step_fault hb hf, stepFault, hw, hh]

theorem step_fault_waiting {s : State} {v : Word} (hb : buildLegal s.build = true) (hf : s.run = .fault)
    (hw : s.waiting = some v) : step s = .next { s with waiting := none } := by
  rw [step_fault hb hf, stepFault, hw]

theorem step_idle_issue {s : State} {w : Word} {rest : List HostTx} (hb : buildLegal s.build = true) (hr : s.run = .idle)
    (hw : s.waiting = none) (hh : s.host = .issue w :: rest) : step s = .next (s.popHost.accept w) := by
  rw [step_idle hb hr, stepIdle, hw, hh]

theorem step_busy_issue {s : State} {w : Word} {rest : List HostTx} (hb : buildLegal s.build = true) (hr : s.run = .busy)
    (hh : s.host = .issue w :: rest) : step s = .next (s.popHost.holdWrite w) := by
  rw [step_busy hb hr, stepBusy, hh]

/-- Settles O10. -/
theorem faultIsStickyUntilReset : Obligations.FaultIsStickyUntilReset := by
  intro s hb hf
  refine ⟨fun v hw => step_fault_waiting hb hf hw, fun w rest hw hh => ?_, fun g rest hw hh => ?_, fun a n rest hw hh hin => ?_,
    fun a n v rest hw hh hin => ?_, fun t ht hno => ?_, fun t rest hw hh ht => ?_⟩
  · rw [step_fault_issue hb hf hw hh, State.popHost_eq hh]
  · rw [step_hostReadSys hb hh (.inr hw)]
    exact congrArg (fun u : State => Host.Outcome.next (u.hostReadSys g)) (State.popHost_eq hh)
  · rw [step_hostRead hb (.inr hf) hw hh, State.popHost_eq hh]
    exact congrArg Host.Outcome.next (if_pos hin)
  · rw [step_hostWrite hb (.inr hf) hw hh, State.popHost_eq hh]
    exact congrArg Host.Outcome.next (if_pos hin)
  · rcases step_in_fault hf ht with ⟨hw, hh⟩ | ⟨hact, hrun⟩
    · exact absurd hno (not_or.2 ⟨not_not.2 hw, not_not.2 hh⟩)
    · exact ⟨hrun, hact.registers⟩
  · rw [step_hostReset hb hh (.inr hw)] at ht
    cases ht
    exact ⟨rfl, rfl, rfl, rfl, rfl, rfl, fun c => ⟨State.getDelay_hostReset _ c, State.getSvf_hostReset _ c⟩⟩

/-! ## CMD writes and the system registers -/

theorem State.holdWrite_of_none {s : State} (h : s.waiting = none) (w : Word) :
    s.holdWrite w = { s with waiting := some w } := by
  rw [holdWrite, h]

/-- Of two writes that wait one is kept. -/
theorem State.holdWrite_of_some {s : State} {v : Word} (h : s.waiting = some v) (w : Word) :
    ((s.holdWrite w).waiting = some v ∨ (s.holdWrite w).waiting = some w) ∧
      s.holdWrite w = { s with waiting := (s.holdWrite w).waiting, free := (s.holdWrite w).free } := by
  unfold holdWrite
  split
  next hnone =>
    rw [h] at hnone
    cases hnone
  · split
    · exact ⟨.inr rfl, rfl⟩
    · exact ⟨.inl h, rfl⟩

/-- Settles O22. -/
theorem commandWritesByRunState : Obligations.CommandWritesByRunState := by
  intro s w rest hb
  refine ⟨fun hr hw hh => ?_, fun hr hw hh => ?_, fun v hr hw hh => ?_, fun v hr hw => ?_, fun v hr hw => ?_⟩
  · rw [step_idle_issue hb hr hw hh]
    exact congrArg (fun u : State => Host.Outcome.next (u.accept w)) (State.popHost_eq hh)
  · have hpop : s.popHost.waiting = none := hw
    rw [step_busy_issue hb hr hh, State.holdWrite_of_none hpop w, State.popHost_eq hh]
  · have hpop : s.popHost.waiting = some v := hw
    obtain ⟨hkept, hframe⟩ := State.holdWrite_of_some hpop w
    refine ⟨_, step_busy_issue hb hr hh, hkept, ?_⟩
    rw [State.popHost_eq hh] at hframe ⊢
    exact hframe
  · rw [step_idle hb hr, stepIdle, hw]
    rfl
  · exact step_fault_waiting hb hr hw

theorem toNat_cfgWord {b : Build} (hlo : 1 ≤ b.nch) (hhi : b.nch ≤ 16) :
    (cfgWord b).toNat =
      (if b.fmt = .b64 then 1 else 0) + 16 * (b.nch - 1) + (if b.svfFb = .lPrev then 256 else 0) := by
  rw [cfgWord, BitVec.toNat_ofNat]
  refine Nat.mod_eq_of_lt ?_
  split
  · split
    · omega
    · omega
  · split
    · omega
    · omega

/-- Settles O23. -/
theorem systemRegisterValues : Obligations.SystemRegisterValues := by
  refine ⟨fun s => ⟨rfl, fun hr => ?_, fun hr => ?_, fun hr => ?_, ?_, rfl, rfl⟩, fun s => toNat_cfgWord,
    fun s g rest hb hh hw => ?_⟩
  · rw [State.readSys, hr, statusWord]
  · rw [State.readSys, hr, statusWord]
  · rw [State.readSys, hr, statusWord]
  · rw [State.readSys, BitVec.toNat_setWidth, Nat.mod_eq_of_lt (by omega)]
  · rw [step_hostReadSys hb hh hw]
    exact congrArg (fun u : State => Host.Outcome.next (u.hostReadSys g)) (State.popHost_eq hh)

/-! ## Right after reset -/

theorem State.getX_powerOn (b : Build) (i : XReg) : (State.powerOn b).getX i = 0 := by simp [getX, powerOn]

theorem State.getDelay_powerOn (b : Build) (c : Chan) : (State.powerOn b).getDelay c = ⟨0, 0, 0, 0⟩ := by
  simp [getDelay, powerOn]

theorem State.getSvf_powerOn (b : Build) (c : Chan) : (State.powerOn b).getSvf c = ⟨0, 0, 0⟩ := by
  simp [getSvf, powerOn]

theorem fits_zeroPattern (f : Fmt) : fits f 0 = true := by
  cases f with
  | b32 | b64 => decide

theorem registersFit_powerOn (b : Build) : RegistersFit (State.powerOn b) := by
  have h0 := fits_zeroPattern b.fmt
  refine ⟨fun i => ?_, ⟨h0, h0, h0, h0, h0⟩, fun c => ?_, ⟨h0, h0, h0⟩, fun c => ?_⟩
  · rw [State.getX_powerOn]
    exact h0
  · rw [State.getDelay_powerOn]
    exact ⟨h0, h0, h0, h0⟩
  · rw [State.getSvf_powerOn]
    exact ⟨h0, h0, h0⟩

theorem absentChannelsZero_powerOn (b : Build) : AbsentChannelsZero (State.powerOn b) :=
  fun c _ => ⟨State.getDelay_powerOn b c, State.getSvf_powerOn b c⟩

theorem invariants_powerOn (b : Build) :
    DmemCanonical (State.powerOn b) ∧ DmemInside (State.powerOn b) ∧ RegistersFit (State.powerOn b) ∧
      AbsentChannelsZero (State.powerOn b) ∧ FaultRegsLegal (State.powerOn b) :=
  ⟨⟨List.Pairwise.nil, nofun⟩, nofun, registersFit_powerOn b, absentChannelsZero_powerOn b, nofun,
    fun _ => ⟨rfl, rfl, rfl⟩⟩

/-- Settles O18. -/
theorem invariantsHoldAtPowerOn : Obligations.InvariantsHoldAtPowerOn :=
  ⟨invariants_powerOn, invariants_powerOn (excfg .b32)⟩

/-- Settles O12. -/
theorem stateResetHasTheSpecifiedValues : Obligations.StateResetHasTheSpecifiedValues :=
  ⟨rfl, rfl, rfl, rfl, rfl, rfl, by decide, rfl, rfl,
    fun c => ⟨State.getDelay_powerOn _ c, State.getSvf_powerOn _ c⟩, rfl, by decide⟩

end Sys2Proof.Machine
end

section
/-! PROOFS. Two invariants of the register files: every register holds a pattern of FMT (10_state.md R40, R46 to R49), and the
channels that the build does not have stay zero (R47, R49; 60_exceptions.md R313). -/

namespace Sys2Proof.Machine

-- One proof at a time: proofs elaborated in parallel each reserve a thread's stack.
set_option Elab.async false

/-- A command keeps a property that fault entry keeps when its effect keeps it once the checks have passed. -/
theorem nextHas_checked {P : State → Prop} {s u : State} {c : Option Raised} (hf : ∀ e, P (s.raise e))
    (hu : c = none → P u) : NextHas P (s.checked c u) := by
  intro t ht
  rcases s.checked_cases u t c ht with ⟨hc, rfl⟩ | ⟨e, -, rfl⟩
  · exact hu hc
  · exact hf e

/-! ## Patterns of FMT: the updates -/

theorem RegistersFit.setX {s : State} (h : RegistersFit s) (i : XReg) {v : Pat} (hv : fits s.fmt v = true) :
    RegistersFit (s.setX i v) := by
  refine ⟨fun j => ?_, h.2⟩
  rw [State.getX_setX]
  split
  · exact hv
  · exact h.1 j

theorem RegistersFit.setBq {s : State} (h : RegistersFit s) {k : BqCoef} (hk : coefFits s.fmt k) :
    RegistersFit (s.setBq k) :=
  ⟨h.1, hk, h.2.2⟩

theorem RegistersFit.setDelay {s : State} (h : RegistersFit s) (c : Chan) {d : BqDelay} (hd : delayFits s.fmt d) :
    RegistersFit (s.setDelay c d) := by
  obtain ⟨hx, hk, hdelay, hrest⟩ := h
  refine ⟨hx, hk, fun j => ?_, hrest⟩
  rw [State.getDelay_setDelay]
  split
  · exact hd
  · exact hdelay j

theorem RegistersFit.setSvf {s : State} (h : RegistersFit s) (c : Chan) {v : SvfChan} (hv : svfChanFits s.fmt v) :
    RegistersFit (s.setSvf c v) := by
  obtain ⟨hx, hk, hdelay, hcoef, hsvf⟩ := h
  refine ⟨hx, hk, hdelay, hcoef, fun j => ?_⟩
  rw [State.getSvf_setSvf]
  split
  · exact hv
  · exact hsvf j

theorem RegistersFit.withSvfCoef {s : State} (h : RegistersFit s) {k : SvfCoef} (hk : svfCoefFits s.fmt k) :
    RegistersFit { s with svf := k } := by
  obtain ⟨hx, hbq, hdelay, -, hsvf⟩ := h
  exact ⟨hx, hbq, hdelay, hk, hsvf⟩

/-- `RegistersFit` speaks of the registers and the format alone. -/
theorem RegistersFit.of_eq {s t : State} (h : RegistersFit s)
    (he : t.x = s.x ∧ t.bq = s.bq ∧ t.bqd = s.bqd ∧ t.svf = s.svf ∧ t.svfc = s.svfc ∧ t.build = s.build) :
    RegistersFit t := by
  obtain ⟨hx, hbq, hbqd, hsvf, hsvfc, hb⟩ := he
  unfold RegistersFit State.getX State.getDelay State.getSvf State.fmt
  rw [hx, hbq, hbqd, hsvf, hsvfc, hb]
  exact h

theorem RegistersFit.putDelay {s : State} (h : RegistersFit s) (c : Chan) {q : BqDelay × Memory}
    (hq : delayFits s.fmt q.1) : RegistersFit (s.putDelay c q) :=
  h.setDelay c hq

theorem RegistersFit.delay {s : State} (h : RegistersFit s) (c : Chan) : delayFits s.fmt (s.getDelay c) := h.2.2.1 c

theorem RegistersFit.svfCoef {s : State} (h : RegistersFit s) : svfCoefFits s.fmt s.svf := h.2.2.2.1

theorem RegistersFit.svfChan {s : State} (h : RegistersFit s) (c : Chan) : svfChanFits s.fmt (s.getSvf c) := h.2.2.2.2 c

theorem RegistersFit.foldl {α : Type} {g : State → α → State} (hg : ∀ u p, RegistersFit u → RegistersFit (g u p))
    (ps : List α) {s : State} (h : RegistersFit s) : RegistersFit (ps.foldl g s) :=
  List.foldlRecOn ps g h fun u hu p _ => hg u p hu

/-! ## Patterns of FMT: the effects of the commands -/

theorem RegistersFit.bqBuf {s : State} (h : RegistersFit s) (c : Chan) (base count : Word) :
    RegistersFit (s.bqBuf c base count) :=
  h.putDelay c (bqBufLoop_fits s.fmt s.bq _ _ _ _ (h.delay c))

/-- The two inputs that BQ_OPT carries are elements, or the two it began with. -/
theorem bqOptLoop_inputs_fit (f : Fmt) (k : BqCoef) (base j n : Nat) {p1 p2 : Pat} (m : Memory) (h1 : fits f p1 = true)
    (h2 : fits f p2 = true) : fits f (bqOptLoop f k base j n p1 p2 m).1.1 = true ∧
      fits f (bqOptLoop f k base j n p1 p2 m).1.2 = true := by
  induction j generalizing n p1 p2 m with
  | zero => exact ⟨h1, h2⟩
  | succ j ih => exact ih (n + 1) _ (fits_elem f m _) h1

theorem bqOptRun_delayFits (f : Fmt) (k : BqCoef) (base n : Nat) (d : BqDelay) (m : Memory) :
    delayFits f (bqOptRun f k base n d m).1 := by
  obtain ⟨hx1, hx2⟩ := bqOptLoop_inputs_fit f k base (n - 2) 2 _ (fits_elem f m _) (fits_elem f m _)
  exact ⟨hx1, hx2, bqOptRun_fits f k base n d m⟩

theorem RegistersFit.bqOpt {s : State} (h : RegistersFit s) (c : Chan) (base count : Word) :
    RegistersFit (s.bqOpt c base count) :=
  h.putDelay c (bqOptRun_delayFits s.fmt s.bq _ _ _ _)

theorem RegistersFit.bqOpt2 {s : State} (h : RegistersFit s) (c : Chan) (inp out count : Word) :
    RegistersFit (s.bqOpt2 c inp out count) :=
  h.putDelay c (bqOpt2Run_fits s.fmt s.bq _ _ _ _ _)

theorem RegistersFit.svfBuf {s : State} (h : RegistersFit s) (o : SvfOut) (c : Chan) (base count : Word) :
    RegistersFit (s.svfBuf o c base count) :=
  h.setSvf c (svfBufLoop_fits s.build s.svf o _ _ _ _ (h.svfChan c))

theorem RegistersFit.setSvfCoef {s : State} (h : RegistersFit s) (xa xb : XReg) :
    RegistersFit (s.setSvfCoef (svfF1 s.build s.svf.fs (s.getX xa)) (svfQ1 s.build (s.getX xb))) :=
  h.withSvfCoef ⟨fits_svfF1 _ _ _, fits_svfQ1 _ _, h.svfCoef.2.2⟩

theorem RegistersFit.readCsr {s : State} (h : RegistersFit s) (csr : Csr) (c : Chan) : fits s.fmt (s.readCsr csr c) = true := by
  obtain ⟨-, ⟨hb0, hb1, hb2, ha1, ha2⟩, hd, ⟨hf1, hq1, hfs⟩, hv⟩ := h
  obtain ⟨hx1, hx2, hy1, hy2⟩ := hd c
  obtain ⟨hh, hb, hl⟩ := hv c
  cases csr with
  | _ => assumption

theorem registersFit_execSvfReset (xa : XReg) {s : State} (h : RegistersFit s) :
    NextHas RegistersFit (execSvfReset xa s) := by
  have h0 := fits_zero s.fmt
  have hclear : RegistersFit ((channels s.build).foldl (fun u c => u.setSvf c (svfZero s.fmt)) s) ∧
      ((channels s.build).foldl (fun u c => u.setSvf c (svfZero s.fmt)) s).fmt = s.fmt :=
    List.foldlRecOn (channels s.build) _ (motive := fun u : State => RegistersFit u ∧ u.fmt = s.fmt) ⟨h, rfl⟩
      fun u hu c _ => ⟨hu.1.setSvf c ⟨fits_zero u.fmt, fits_zero u.fmt, fits_zero u.fmt⟩, hu.2⟩
  refine nextHas_next (hclear.1.withSvfCoef ?_)
  rw [hclear.2]
  exact ⟨h0, h0, h.1 xa⟩

theorem registersFit_execSvfSetc (rd : RReg) (xa xb : XReg) {s : State} (h : RegistersFit s) :
    NextHas RegistersFit (execSvfSetc rd xa xb s) := by
  simp only [execSvfSetc]
  split
  · exact nextHas_next h
  · exact nextHas_next (h.setSvfCoef xa xb)

theorem registersFit_checked {s u : State} {c : Option Raised} (h : RegistersFit s) (hu : RegistersFit u) :
    NextHas RegistersFit (s.checked c u) :=
  nextHas_checked (fun _ => h) fun _ => hu

theorem registersFit_svfProc (o : SvfOut) (xd xa : XReg) (ch : Chan) {s : State} (h : RegistersFit s) :
    NextHas RegistersFit (s.svfProc o xd xa ch) :=
  registersFit_checked h ((h.setSvf ch (svfStep_fits _ _ _ _)).setX xd (fits_svfPick _ _ _ _ _))

theorem registersFit_svfMbufCmd (o : SvfOut) (ra rb : RReg) {s : State} (h : RegistersFit s) :
    NextHas RegistersFit (s.svfMbufCmd o ra rb) := by
  refine registersFit_checked h (RegistersFit.foldl (fun u p hu => ?_) _ h)
  exact hu.svfBuf o _ _ _

/-- Every command keeps the registers in format: what it writes is the result of a primitive, an element of DMEM, a constant
or a register. -/
theorem registersFit_exec (i : Instr) {s : State} (h : RegistersFit s) : NextHas RegistersFit (exec i s) := by
  cases i with
  | nop | setr | setrh | addri | within => exact nextHas_next h
  | mov xd xs => exact nextHas_next (h.setX xd (h.1 xs))
  | const xd k => exact nextHas_next (h.setX xd (fits_constValue _ k))
  | sinRef xd | cosRef xd | tanRef xd | tanhRef xd | log2Ref xd => exact nextHas_next (h.setX xd (fits_refApply _ _ _))
  | sinFast xd | sinFaster xd | cosFast xd | cosFaster xd | tanFast xd | tanFaster xd | tanhFast xd | log2Fast xd
  | sqrtFast xd => exact nextHas_next (h.setX xd (fits_fastEval _ _ _))
  | log2Bit xd => exact nextHas_next (h.setX xd (fits_log2BitFn _ _ _))
  | sqrtRef xd => exact nextHas_next (h.setX xd (fits_fsqrt _ _))
  | fmin xd xa xb => exact nextHas_next (h.setX xd (fits_minSel _ _ _ (h.1 xa) (h.1 xb)))
  | fmax xd xa xb => exact nextHas_next (h.setX xd (fits_maxSel _ _ _ (h.1 xa) (h.1 xb)))
  | clip xd xa xb xc => exact nextHas_next (h.setX xd (fits_clipSel _ _ _ _ (h.1 xa) (h.1 xb) (h.1 xc)))
  | bqLpN | bqLpCs | bqLpD | bqHpN | bqHpCs | bqHpD | bqBpN | bqBpCs | bqBpD | bqBrN | bqBrCs | bqBrD | bqApN | bqApCs
  | bqApD => exact nextHas_next (h.setBq (bqDirect_fits _ _ _ _))
  | svfSetu xa xb => exact nextHas_next (h.setSvfCoef xa xb)
  | svfReset xa => exact registersFit_execSvfReset xa h
  | svfSetc rd xa xb => exact registersFit_execSvfSetc rd xa xb h
  | ld xd => exact registersFit_checked h (h.setX xd (fits_elem _ _ _))
  | st => exact registersFit_checked h h
  | mfc xd csr ch => exact registersFit_checked h (h.setX xd (h.readCsr csr ch))
  | polyHorner xd => exact registersFit_checked h (h.setX xd (fits_horner _ _ _ (elems_fits _ _ _ _)))
  | polyFma2 xd => exact registersFit_checked h (h.setX xd (fits_ffma _ _ _ _))
  | polyEstrin xd => exact registersFit_checked h (h.setX xd (fits_estrin _ _ _ (elems_fits _ _ _ _)))
  | polyRat xd => exact registersFit_checked h (h.setX xd (fits_rat _ _ _ _))
  | bqProc xd xa ch =>
    obtain ⟨hx1, -, hy1, -⟩ := h.delay ch
    exact registersFit_checked h
      ((h.setDelay ch ⟨h.1 xa, hx1, fits_bqF _ _ _ _ _ _ _, hy1⟩).setX xd (fits_bqF _ _ _ _ _ _ _))
  | bqBuf ra rb ch => exact registersFit_checked h (h.bqBuf ch _ _)
  | bqOpt ra rb ch => exact registersFit_checked h (h.bqOpt ch _ _)
  | bqOpt2 rd ra rb ch => exact registersFit_checked h (h.bqOpt2 ch _ _ _)
  | bqMbuf =>
    refine registersFit_checked h (RegistersFit.foldl (fun u p hu => ?_) _ h)
    exact hu.bqBuf _ _ _
  | bqMopt =>
    refine registersFit_checked h (RegistersFit.foldl (fun u p hu => ?_) _ h)
    exact hu.bqOpt _ _ _
  | bqMopt2 =>
    refine registersFit_checked h (RegistersFit.foldl (fun u p hu => ?_) _ h)
    exact hu.bqOpt2 _ _ _ _
  | svfProcHp xd xa ch => exact registersFit_svfProc .hp xd xa ch h
  | svfProcBp xd xa ch => exact registersFit_svfProc .bp xd xa ch h
  | svfProcLp xd xa ch => exact registersFit_svfProc .lp xd xa ch h
  | svfFrame rd xa ch => exact registersFit_checked h (h.setSvf ch (svfStep_fits _ _ _ _))
  | svfBufHp ra rb ch => exact registersFit_checked h (h.svfBuf .hp ch _ _)
  | svfBufBp ra rb ch => exact registersFit_checked h (h.svfBuf .bp ch _ _)
  | svfBufLp ra rb ch => exact registersFit_checked h (h.svfBuf .lp ch _ _)
  | svfMbufHp ra rb => exact registersFit_svfMbufCmd .hp ra rb h
  | svfMbufBp ra rb => exact registersFit_svfMbufCmd .bp ra rb h
  | svfMbufLp ra rb => exact registersFit_svfMbufCmd .lp ra rb h

theorem CommandTurn.registers {s u : State} (h : CommandTurn s u) :
    u.x = s.x ∧ u.bq = s.bq ∧ u.bqd = s.bqd ∧ u.svf = s.svf ∧ u.svfc = s.svfc ∧ u.build = s.build := by
  rw [h.eq_withHost]
  exact ⟨rfl, rfl, rfl, rfl, rfl, rfl⟩

theorem HostActs.build {s t : State} (h : HostActs s t) : t.build = s.build := by rw [h.frame]

/-- Settles O14: a command keeps the registers in format, a reset zeroes them, and the host's transactions leave them. -/
theorem registersStayInFormat : Obligations.RegistersStayInFormat := by
  intro s t hs ht
  cases step_is ht with
  | reset => exact (registersFit_powerOn s.build).of_eq ⟨rfl, rfl, rfl, rfl, rfl, rfl⟩
  | command i hu _ hx =>
    have hturn : RegistersFit _ := hs.of_eq hu.registers
    refine registersFit_exec i ?_ t hx
    exact hturn.of_eq ⟨rfl, rfl, rfl, rfl, rfl, rfl⟩
  | illegal hu => exact hs.of_eq hu.registers
  | host hh =>
    obtain ⟨-, -, -, hx, -, hbq, hbqd, hsvf, hsvfc⟩ := hh.registers
    exact hs.of_eq ⟨hx, hbq, hbqd, hsvf, hsvfc, hh.build⟩

/-! ## The channels that the build does not have -/

/-- From `s` to `t` the build stays, and the filter state of the channels that it does not have. -/
structure KeepsAbsent (s t : State) : Prop where
  build : t.build = s.build
  same : ∀ c : Chan, s.build.nch ≤ c.val → t.getDelay c = s.getDelay c ∧ t.getSvf c = s.getSvf c

theorem KeepsAbsent.invariant {s t : State} (h : KeepsAbsent s t) (hs : AbsentChannelsZero s) : AbsentChannelsZero t := by
  intro c hc
  rw [h.build] at hc
  obtain ⟨hd, hv⟩ := h.same c hc
  rw [hd, hv]
  exact hs c hc

theorem keepsAbsent_of_eq {s t : State} (he : t.build = s.build ∧ t.bqd = s.bqd ∧ t.svfc = s.svfc) : KeepsAbsent s t := by
  obtain ⟨hb, hbqd, hsvfc⟩ := he
  refine ⟨hb, fun c _ => ?_⟩
  rw [State.getDelay, State.getSvf, hbqd, hsvfc]
  exact ⟨rfl, rfl⟩

theorem KeepsAbsent.trans {s t u : State} (h : KeepsAbsent s t) (h' : KeepsAbsent t u) : KeepsAbsent s u := by
  refine ⟨h'.build.trans h.build, fun c hc => ?_⟩
  obtain ⟨hd, hv⟩ := h.same c hc
  obtain ⟨hd', hv'⟩ := h'.same c (h.build ▸ hc)
  exact ⟨hd'.trans hd, hv'.trans hv⟩

/-- Writing the delay state of a channel of the build. -/
theorem keepsAbsent_setDelay {s : State} {c : Chan} (hc : c.val < s.build.nch) (d : BqDelay) :
    KeepsAbsent s (s.setDelay c d) :=
  ⟨rfl, fun j hj => ⟨State.getDelay_setDelay_other s d (by rintro rfl; omega), rfl⟩⟩

/-- Writing the state-variable state of a channel of the build. -/
theorem keepsAbsent_setSvf {s : State} {c : Chan} (hc : c.val < s.build.nch) (v : SvfChan) :
    KeepsAbsent s (s.setSvf c v) :=
  ⟨rfl, fun j hj => ⟨rfl, State.getSvf_setSvf_other s v (by rintro rfl; omega)⟩⟩

theorem keepsAbsent_foldl {α : Type} {g : State → α → State} (ps : List α) {s : State}
    (h : ∀ p ∈ ps, ∀ u : State, u.build = s.build → KeepsAbsent u (g u p)) : KeepsAbsent s (ps.foldl g s) :=
  List.foldlRecOn ps g (keepsAbsent_of_eq ⟨rfl, rfl, rfl⟩) fun u hu p hp => hu.trans (h p hp u hu.build)

theorem nextHas_keepsAbsent_checked {s u : State} {c : Option Raised} (hu : c = none → KeepsAbsent s u) :
    NextHas (KeepsAbsent s) (s.checked c u) :=
  nextHas_checked (fun _ => keepsAbsent_of_eq ⟨rfl, rfl, rfl⟩) hu

theorem channel_present_of_checks {b : Build} {c : Chan} {cs : List (Option Raised)}
    (h : firstRaised (checkChannel b c :: cs) = none) : c.val < b.nch :=
  (checkChannel_eq_none b c).1 ((firstRaised_eq_none _).1 h _ List.mem_cons_self)

theorem pointers_present {s : State} {t : Word} : ∀ p ∈ s.pointers t, p.1.val < s.build.nch :=
  s.forall_mem_pointers fun _ hc => hc

theorem pointerPairs_present {s : State} {ti tout : Word} : ∀ p ∈ s.pointerPairs ti tout, p.1.val < s.build.nch := by
  intro p hp
  obtain ⟨c, hc, rfl⟩ := List.mem_map.1 hp
  exact (mem_channels _ _).1 hc

theorem keepsAbsent_svfProc (o : SvfOut) (xd xa : XReg) (ch : Chan) (s : State) :
    NextHas (KeepsAbsent s) (s.svfProc o xd xa ch) :=
  nextHas_keepsAbsent_checked fun hc =>
    (keepsAbsent_setSvf ((checkChannel_eq_none _ _).1 hc) _).trans (keepsAbsent_of_eq ⟨rfl, rfl, rfl⟩)

theorem keepsAbsent_svfBuf {s : State} (o : SvfOut) {c : Chan} (base count : Word) (hc : c.val < s.build.nch) :
    KeepsAbsent s (s.svfBuf o c base count) :=
  (keepsAbsent_setSvf hc _).trans (keepsAbsent_of_eq ⟨rfl, rfl, rfl⟩)

theorem keepsAbsent_putDelay {s : State} {c : Chan} (q : BqDelay × Memory) (hc : c.val < s.build.nch) :
    KeepsAbsent s (s.putDelay c q) :=
  (keepsAbsent_setDelay hc _).trans (keepsAbsent_of_eq ⟨rfl, rfl, rfl⟩)

theorem keepsAbsent_svfBufCmd (o : SvfOut) (ra rb : RReg) (ch : Chan) (s : State) :
    NextHas (KeepsAbsent s) (s.svfBufCmd o ra rb ch) :=
  nextHas_keepsAbsent_checked fun hc => keepsAbsent_svfBuf o _ _ (channel_present_of_checks hc)

theorem keepsAbsent_svfMbufCmd (o : SvfOut) (ra rb : RReg) (s : State) :
    NextHas (KeepsAbsent s) (s.svfMbufCmd o ra rb) :=
  nextHas_keepsAbsent_checked fun _ => keepsAbsent_foldl _ fun p hp _ hu =>
    keepsAbsent_svfBuf o _ _ (hu ▸ pointers_present p hp)

theorem keepsAbsent_execSvfReset (xa : XReg) (s : State) : NextHas (KeepsAbsent s) (execSvfReset xa s) :=
  have hclear : KeepsAbsent s ((channels s.build).foldl (fun u c => u.setSvf c (svfZero s.fmt)) s) :=
    keepsAbsent_foldl _ fun _ hc _ hu => keepsAbsent_setSvf (hu ▸ (mem_channels _ _).1 hc) _
  nextHas_next (hclear.trans (keepsAbsent_of_eq ⟨rfl, rfl, rfl⟩))

/-- A command that is no writer of the filter state leaves all of it. -/
theorem keepsAbsent_of_not_writer {i : Instr} (hd : writesDelay i = false) (hv : writesSvfChan i = false) (s : State) :
    NextHas (KeepsAbsent s) (exec i s) := by
  intro t ht
  cases exec_is i s t ht with
  | faults => exact keepsAbsent_of_eq ⟨rfl, rfl, rfl⟩
  | completes hw =>
    refine keepsAbsent_of_eq ⟨hw.build, ?_, ?_⟩
    · rw [hw, hd]
      rfl
    · rw [hw, hv]
      rfl

/-- Every command leaves the absent channels: a writer of the filter state has checked its channel, or takes it from the
channels of the build. -/
theorem keepsAbsent_exec (i : Instr) (s : State) : NextHas (KeepsAbsent s) (exec i s) := by
  cases i with
  | bqProc xd xa ch =>
    exact nextHas_keepsAbsent_checked fun hc =>
      (keepsAbsent_setDelay ((checkChannel_eq_none _ _).1 hc) _).trans (keepsAbsent_of_eq ⟨rfl, rfl, rfl⟩)
  | bqBuf | bqOpt | bqOpt2 =>
    exact nextHas_keepsAbsent_checked fun hc => keepsAbsent_putDelay _ (channel_present_of_checks hc)
  | bqMbuf | bqMopt =>
    exact nextHas_keepsAbsent_checked fun _ => keepsAbsent_foldl _ fun p hp _ hu =>
      keepsAbsent_putDelay _ (hu ▸ pointers_present p hp)
  | bqMopt2 =>
    exact nextHas_keepsAbsent_checked fun _ => keepsAbsent_foldl _ fun p hp _ hu =>
      keepsAbsent_putDelay _ (hu ▸ pointerPairs_present p hp)
  | svfReset xa => exact keepsAbsent_execSvfReset xa s
  | svfProcHp xd xa ch => exact keepsAbsent_svfProc .hp xd xa ch s
  | svfProcBp xd xa ch => exact keepsAbsent_svfProc .bp xd xa ch s
  | svfProcLp xd xa ch => exact keepsAbsent_svfProc .lp xd xa ch s
  | svfFrame rd xa ch =>
    exact nextHas_keepsAbsent_checked fun hc =>
      (keepsAbsent_setSvf (channel_present_of_checks hc) _).trans (keepsAbsent_of_eq ⟨rfl, rfl, rfl⟩)
  | svfBufHp ra rb ch => exact keepsAbsent_svfBufCmd .hp ra rb ch s
  | svfBufBp ra rb ch => exact keepsAbsent_svfBufCmd .bp ra rb ch s
  | svfBufLp ra rb ch => exact keepsAbsent_svfBufCmd .lp ra rb ch s
  | svfMbufHp ra rb => exact keepsAbsent_svfMbufCmd .hp ra rb s
  | svfMbufBp ra rb => exact keepsAbsent_svfMbufCmd .bp ra rb s
  | svfMbufLp ra rb => exact keepsAbsent_svfMbufCmd .lp ra rb s
  | _ => exact keepsAbsent_of_not_writer rfl rfl s

theorem CommandTurn.keepsAbsent {s u : State} (h : CommandTurn s u) : KeepsAbsent s u := by
  obtain ⟨-, -, hbqd, -, hsvfc, hb⟩ := h.registers
  exact keepsAbsent_of_eq ⟨hb, hbqd, hsvfc⟩

/-- Settles O15. -/
theorem absentChannelsStayUntouched : Obligations.AbsentChannelsStayUntouched := by
  intro s t hs ht
  cases step_is ht with
  | reset => exact fun c _ => ⟨State.getDelay_hostReset _ c, State.getSvf_hostReset _ c⟩
  | command i hu _ hx =>
    refine (hu.keepsAbsent.trans (KeepsAbsent.trans ?_ (keepsAbsent_exec i _ t hx))).invariant hs
    exact keepsAbsent_of_eq ⟨rfl, rfl, rfl⟩
  | illegal hu => exact (hu.keepsAbsent.trans (keepsAbsent_of_eq ⟨rfl, rfl, rfl⟩)).invariant hs
  | host hh =>
    obtain ⟨-, -, -, -, -, -, hbqd, -, hsvfc⟩ := hh.registers
    exact (keepsAbsent_of_eq ⟨hh.build, hbqd, hsvfc⟩).invariant hs

end Sys2Proof.Machine
end

section
/-! PROOFS. Data movement, integer and register-access commands (40_data_movement.md R141 to R148), the pseudo-commands
(30_encoding.md R121), and the checks of channels and counts (60_exceptions.md R313, R314). -/

namespace Sys2Proof.Machine

-- One proof at a time: proofs elaborated in parallel each reserve a thread's stack.
set_option Elab.async false

/-! ## Integer commands -/

/-- The effective address is the wrapping sum with the sign-extended immediate (20_memory.md R87). -/
theorem toNat_addOffset (s : State) (ra : RReg) (imm : BitVec 16) :
    ((s.addOffset ra imm).toNat : ℤ) = (((s.getR ra).toNat : ℤ) + imm.toInt) % 4294967296 := by
  have hext : ((sext32 imm).toNat : ℤ) = imm.toInt % 4294967296 := by
    rw [sext32, BitVec.signExtend, BitVec.toNat_ofInt]
    exact Int.toNat_of_nonneg (Int.emod_nonneg _ (by decide))
  rw [State.addOffset, BitVec.toNat_add, Int.natCast_emod, Nat.cast_add, hext]
  exact Int.add_emod_emod _ _ _

theorem toNat_setrhValue (imm : BitVec 16) (v : Word) :
    (BitVec.ofNat 32 (imm.toNat * 2 ^ 16 + v.toNat % 2 ^ 16)).toNat = imm.toNat * 65536 + v.toNat % 65536 := by
  have h := imm.isLt
  rw [BitVec.toNat_ofNat]
  omega

/-- Settles O26. -/
theorem integerCommandResults : Obligations.IntegerCommandResults := by
  intro s rd ra imm
  refine ⟨⟨_, rfl, rfl, fun _ hj => s.getR_setR_other _ hj, ?_⟩, ⟨_, rfl, rfl, fun _ hj => s.getR_setR_other _ hj, ?_⟩,
    ⟨_, rfl, rfl, fun _ hj => s.getR_setR_other _ hj, ?_⟩, toNat_addOffset s ra imm⟩
  · have h := imm.isLt
    rw [State.getR_setR_same, BitVec.toNat_setWidth]
    omega
  · rw [State.getR_setR_same, toNat_setrhValue]
  · rw [State.getR_setR_same, toNat_addOffset]

theorem halves_eq (imm : Word) :
    BitVec.ofNat 32 ((imm.extractLsb' 16 16).toNat * 2 ^ 16 + ((imm.extractLsb' 0 16).setWidth 32).toNat % 2 ^ 16) = imm := by
  apply BitVec.eq_of_toNat_eq
  have h := imm.isLt
  simp only [BitVec.toNat_ofNat, BitVec.toNat_setWidth, BitVec.extractLsb'_toNat, Nat.shiftRight_eq_div_pow]
  omega

theorem addOffset_zero (s : State) (ra : RReg) : s.addOffset ra 0 = s.getR ra := by
  simp [State.addOffset, sext32]

theorem toNat_addOffset_eb (s : State) (ra : RReg) (f : Fmt) :
    (s.addOffset ra (BitVec.ofNat 16 (eb f))).toNat = ((s.getR ra).toNat + eb f) % 2 ^ 32 := by
  have heb : (BitVec.ofNat 16 (eb f)).toInt = eb f := by
    cases f with
    | b32 | b64 => decide
  have h := toNat_addOffset s ra (BitVec.ofNat 16 (eb f))
  rw [heb] at h
  omega

/-- Settles O27. -/
theorem pseudoInstructionEffects : Obligations.PseudoInstructionEffects := by
  intro s rd ra imm
  refine ⟨⟨_, _, _, _, rfl, rfl, rfl, rfl, rfl, rfl, fun j hj => ?_, ?_⟩,
    ⟨_, rfl, rfl, rfl, fun _ hj => s.getR_setR_other _ hj, ?_⟩,
    ⟨_, _, rfl, rfl, rfl, rfl, fun _ hj => s.getR_setR_other _ hj, ?_⟩⟩
  · rw [State.getR_setR_other _ _ hj, State.getR_setR_other _ _ hj]
  · rw [State.getR_setR_same, State.getR_setR_same, halves_eq]
  · rw [State.getR_setR_same, addOffset_zero]
  · rw [State.getR_setR_same, toNat_addOffset_eb]

/-! ## LD, ST, MOV and MFC -/

theorem flen_eq (f : Fmt) : flen f = 8 * eb f := by
  cases f with
  | b32 | b64 => rfl

/-- Settles O28. -/
theorem loadReadsOneElement : Obligations.LoadReadsOneElement := by
  intro s xd ra imm hr
  refine ⟨_, exec_of_checked rfl ((checkElems_eq_none _ _ _).2 hr), rfl,
    fun _ hj => s.getX_setX_other _ hj, fun k hk => ?_, ?_⟩
  · rw [State.getX_setX_same]
    exact extractLsb'_memRead s.dmem _ _ k (eb_le s.fmt) hk
  · rw [State.getX_setX_same, flen_eq]
    exact memRead_lt s.dmem _ _ (eb_le s.fmt)

/-- Settles O29. -/
theorem storeWritesOneElement : Obligations.StoreWritesOneElement := by
  intro s xs ra imm hm hr
  exact ⟨_, exec_of_checked rfl ((checkElems_eq_none _ _ _).2 hr), rfl,
    fun k hk => readByte_memWrite s.dmem _ _ k _ hm hk, bytesOutside_memWrite s.dmem _ _ _⟩

theorem mfc_setsX {s : State} {csr : Csr} {c : Chan} (xd : XReg) (h : checkCsr s.build csr c = none) :
    SetsX (.mfc xd csr c) s xd (s.readCsr csr c) :=
  setsX_of_exec (exec_of_checked rfl h)

theorem mfc_channel_fault {s : State} {csr : Csr} {c : Chan} (xd : XReg) (hp : csr.perChannel = true)
    (hc : s.build.nch ≤ c.val) : FaultsWith (.mfc xd csr c) s 2 (BitVec.ofNat 32 c.val) := by
  refine faultsWith_of_checked (e := ⟨.channel, BitVec.ofNat 32 c.val⟩) rfl ?_
  rw [checkCsr, hp, if_pos rfl, checkChannel_absent _ _ hc]

/-- Settles O30. -/
theorem moveCommandsCopyPatterns : Obligations.MoveCommandsCopyPatterns := by
  intro s xd xs c
  refine ⟨setsX_of_exec rfl, mfc_setsX xd rfl, mfc_setsX xd rfl, mfc_setsX xd rfl, mfc_setsX xd rfl, mfc_setsX xd rfl,
    mfc_setsX xd rfl, mfc_setsX xd rfl, mfc_setsX xd rfl, fun hc => ?_, fun hc _ hp => mfc_channel_fault xd hp hc⟩
  have hpass : checkChannel s.build c = none := (checkChannel_eq_none _ _).2 hc
  exact ⟨mfc_setsX xd hpass, mfc_setsX xd hpass, mfc_setsX xd hpass, mfc_setsX xd hpass, mfc_setsX xd hpass,
    mfc_setsX xd hpass, mfc_setsX xd hpass⟩

/-! ## Channels and counts -/

/-- A command whose first check is that of its channel. -/
theorem channel_fault_of_checks {i : Instr} {s u : State} {c : Chan} (post : List (Option Raised))
    (hx : exec i s = s.checked (firstRaised (checkChannel s.build c :: post)) u) (hc : s.build.nch ≤ c.val) :
    FaultsWith i s 2 (BitVec.ofNat 32 c.val) :=
  faultsWith_of_checked (e := ⟨.channel, BitVec.ofNat 32 c.val⟩) hx
    (by rw [checkChannel_absent _ _ hc, firstRaised_some])

theorem channel_fault_of_check {i : Instr} {s u : State} {c : Chan}
    (hx : exec i s = s.checked (checkChannel s.build c) u) (hc : s.build.nch ≤ c.val) :
    FaultsWith i s 2 (BitVec.ofNat 32 c.val) :=
  faultsWith_of_checked (e := ⟨.channel, BitVec.ofNat 32 c.val⟩) hx (checkChannel_absent _ _ hc)

theorem processingChannel_fault {i : Instr} {s : State} {c : Chan} (hi : processingChannel i = some c)
    (hc : s.build.nch ≤ c.val) : FaultsWith i s 2 (BitVec.ofNat 32 c.val) := by
  cases i with
  | bqProc | svfProcHp | svfProcBp | svfProcLp =>
    cases hi
    exact channel_fault_of_check rfl hc
  | bqBuf | bqOpt | bqOpt2 | svfFrame | svfBufHp | svfBufBp | svfBufLp =>
    cases hi
    exact channel_fault_of_checks _ rfl hc
  | _ => cases hi

/-- A command that checks a count after checks that pass. -/
theorem count_fault_of_checks {i : Instr} {s u : State} {n : Word} (pre post : List (Option Raised))
    (hx : exec i s = s.checked (firstRaised (pre ++ checkCount n :: post)) u) (hpre : ∀ d ∈ pre, d = none)
    (hn : n.toNat < 2) : FaultsWith i s 3 n :=
  faultsWith_of_checked (e := ⟨.count, n⟩) hx (firstRaised_of_pass hpre (checkCount_small n hn))

/-- Settles O57. -/
theorem channelAndCountFaults : Obligations.ChannelAndCountFaults := by
  intro s
  refine ⟨fun i c => processingChannel_fault, fun rd ra rb c hn => ⟨fun hc => ?_, ?_, ?_⟩⟩
  · have hpass : ∀ d ∈ [checkChannel s.build c], d = none := by simpa [checkChannel_eq_none] using hc
    exact ⟨count_fault_of_checks _ _ rfl hpass hn, count_fault_of_checks _ _ rfl hpass hn⟩
  · exact count_fault_of_checks [] _ rfl nofun hn
  · exact count_fault_of_checks [] _ rfl nofun hn

end Sys2Proof.Machine
end

section
/-! PROOFS. The State-Variable Filter's commands (44_svf.md R281 to R293), and the independence of the channels
(60_exceptions.md R330). -/

namespace Sys2Proof.Machine

-- One proof at a time: proofs elaborated in parallel each reserve a thread's stack.
set_option Elab.async false

/-! ## SVF.RESET, SVF.SETC and SVF.SETU -/

theorem getSvf_foldl_setSvf (cs : List Chan) (v : SvfChan) (s : State) (c : Chan) :
    (cs.foldl (fun u e => u.setSvf e v) s).getSvf c = if c ∈ cs then v else s.getSvf c := by
  induction cs generalizing s with
  | nil => simp
  | cons e cs ih =>
    rw [List.foldl_cons, ih, State.getSvf_setSvf]
    by_cases hc : c ∈ cs
    · simp [hc]
    · simp [hc]

theorem svfReset_next (s : State) (xa : XReg) :
    ∃ t, exec (.svfReset xa) s = .next t ∧ t = { s with svf := t.svf, svfc := t.svfc } ∧
      t.svf = ⟨zero s.fmt, zero s.fmt, s.getX xa⟩ ∧
      ∀ c : Chan, t.getSvf c = if c.val < s.build.nch then svfZero s.fmt else s.getSvf c := by
  refine ⟨_, rfl, ?_, rfl, fun c => ?_⟩
  · exact congrArg (fun u : State => ({ u with svf := ⟨zero s.fmt, zero s.fmt, s.getX xa⟩ } : State))
      (svfReset_foldl s (channels s.build) (svfZero s.fmt))
  · refine (getSvf_foldl_setSvf (channels s.build) (svfZero s.fmt) s c).trans ?_
    simp only [mem_channels]

theorem svfSetc_rejected {s : State} {rd : RReg} {xa xb : XReg}
    (h : svfReject s.fmt (svfF1 s.build s.svf.fs (s.getX xa)) (svfQ1 s.build (s.getX xb)) = true) :
    exec (.svfSetc rd xa xb) s = .next (s.setR rd 0) :=
  if_pos h

theorem svfSetc_applied {s : State} {rd : RReg} {xa xb : XReg}
    (h : svfReject s.fmt (svfF1 s.build s.svf.fs (s.getX xa)) (svfQ1 s.build (s.getX xb)) = false) :
    exec (.svfSetc rd xa xb) s =
      .next ((s.setSvfCoef (svfF1 s.build s.svf.fs (s.getX xa)) (svfQ1 s.build (s.getX xb))).setR rd 1) :=
  if_neg (by rw [h]; nofun)

/-- Settles O53. -/
theorem svfResetAndCoefficientResults : Obligations.SvfResetAndCoefficientResults := by
  intro s rd xa xb
  refine ⟨svfReset_next s xa, ⟨_, rfl, rfl, rfl⟩, fun h => setsR_of_exec (svfSetc_rejected h), fun h => ?_⟩
  exact ⟨_, svfSetc_applied h, rfl, fun _ hj => State.getR_setR_other _ _ hj, State.getR_setR_same _ _ _, rfl⟩

/-! ## One sample -/

theorem exec_svfProc {i : Instr} {o : SvfOut} {s : State} {xd xa : XReg} {c : Chan}
    (hi : exec i s = s.svfProc o xd xa c) (hc : c.val < s.build.nch) :
    ∃ t, exec i s = .next t ∧ t = { s with x := t.x, svfc := t.svfc } ∧ OtherX xd s t ∧ OtherSvf c s t ∧
      t.getX xd = svfPick o (svfStep s.build s.svf (s.getSvf c) (s.getX xa)) ∧
      t.getSvf c = svfStep s.build s.svf (s.getSvf c) (s.getX xa) :=
  ⟨_, exec_of_checked hi ((checkChannel_eq_none _ _).2 hc), rfl, fun _ hj => State.getX_setX_other _ _ hj,
    fun _ hj => State.getSvf_setSvf_other s _ hj, State.getX_setX_same _ _ _, State.getSvf_setSvf_same s _ _⟩

/-- Three consecutive elements (44_svf.md R290). -/
def setThree (f : Fmt) (base : Nat) (v : SvfChan) (m : Memory) : Memory :=
  setElem f (setElem f (setElem f m (elemAddr f base 0) v.h) (elemAddr f base 1) v.b) (elemAddr f base 2) v.l

theorem elems_setThree (f : Fmt) (base : Nat) {v : SvfChan} {m : Memory} (hm : Memory.wf m) (hv : svfChanFits f v) :
    elems f (setThree f base v m) base 3 = [v.h, v.b, v.l] := by
  obtain ⟨hh, hb, hl⟩ := hv
  have h1 := wf_setElem f m (elemAddr f base 0) v.h hm
  have h2 := wf_setElem f _ (elemAddr f base 1) v.b h1
  have e0 : elem f (setThree f base v m) (elemAddr f base 0) = v.h := by
    rw [setThree, elem_setElem_elem _ _ _ _ _ _ (by decide), elem_setElem_elem _ _ _ _ _ _ (by decide),
      elem_setElem_same _ _ _ _ hm hh]
  have e1 : elem f (setThree f base v m) (elemAddr f base 1) = v.b := by
    rw [setThree, elem_setElem_elem _ _ _ _ _ _ (by decide), elem_setElem_same _ _ _ _ h1 hb]
  have e2 : elem f (setThree f base v m) (elemAddr f base 2) = v.l := elem_setElem_same _ _ _ _ h2 hl
  change [elem f _ (elemAddr f base 0), elem f _ (elemAddr f base 1), elem f _ (elemAddr f base 2)] = _
  rw [e0, e1, e2]

theorem bytesOutside_setThree (f : Fmt) (base : Nat) (v : SvfChan) (m : Memory) :
    BytesOutside base (3 * eb f) m (setThree f base v m) := by
  intro p hp
  have hpos := eb_pos f
  rw [setThree, readByte_setElem_other _ _ _ _ _ (by simp only [elemAddr]; omega),
    readByte_setElem_other _ _ _ _ _ (by simp only [elemAddr]; omega),
    readByte_setElem_other _ _ _ _ _ (by simp only [elemAddr]; omega)]

theorem exec_svfFrame {s : State} {rd : RReg} {xa : XReg} {c : Chan} (hc : c.val < s.build.nch)
    (hr : RegionOk s.build (s.getR rd) 3) :
    exec (.svfFrame rd xa c) s = .next
      ((s.setSvf c (svfStep s.build s.svf (s.getSvf c) (s.getX xa))).setDmem
        (setThree s.fmt (s.getR rd).toNat (svfStep s.build s.svf (s.getSvf c) (s.getX xa)) s.dmem)) :=
  exec_of_checked rfl (by simp [firstRaised_eq_none, checkChannel_eq_none, checkElems_eq_none, hc, hr])

/-- Settles O54: the three outputs are the fields of `svfStep`. -/
theorem svfSampleResults : Obligations.SvfSampleResults := by
  intro s rd xd xa c hc
  refine ⟨exec_svfProc (o := .hp) rfl hc, exec_svfProc (o := .bp) rfl hc, exec_svfProc (o := .lp) rfl hc, fun hm hr => ?_⟩
  exact ⟨_, exec_svfFrame hc hr, rfl, fun _ hj => State.getSvf_setSvf_other s _ hj, State.getSvf_setSvf_same s _ _,
    elems_setThree s.fmt _ hm (svfStep_fits _ _ _ _), bytesOutside_setThree s.fmt _ _ _⟩

/-! ## Buffers -/

theorem svfBuf_result {i : Instr} {o : SvfOut} {s : State} {ra rb : RReg} {c : Chan}
    (hi : exec i s = s.svfBufCmd o ra rb c) (hc : c.val < s.build.nch) (hm : DmemCanonical s)
    (hr : RegionOk s.build (s.getR ra) (s.getR rb).toNat) :
    ∃ t, exec i s = .next t ∧ SameButSvfDmem s t ∧ OtherSvf c s t ∧
      BytesOutside (s.getR ra).toNat ((s.getR rb).toNat * eb s.fmt) s.dmem t.dmem ∧
      (elems s.fmt t.dmem (s.getR ra).toNat (s.getR rb).toNat, t.getSvf c) =
        svfSamples s.build s.svf o (s.getSvf c) (elems s.fmt s.dmem (s.getR ra).toNat (s.getR rb).toNat) := by
  refine ⟨_, exec_svfBuf hi hc hr, rfl, fun _ hj => State.getSvf_setSvf_other s _ hj,
    svfBufLoop_outside s.build s.svf o _ _ _ _, ?_⟩
  rw [← show _ = svfSamples s.build s.svf o (s.getSvf c) (elems s.fmt s.dmem (s.getR ra).toNat (s.getR rb).toNat) from
    svfBufLoop_samples s.build s.svf o (s.getR rb).toNat (s.getR ra).toNat (s.getSvf c) s.dmem hm]
  exact Prod.ext rfl (State.getSvf_setSvf_same s c _)

/-- Settles O55. -/
theorem svfBufferResults : Obligations.SvfBufferResults := by
  intro s ra rb c hc hm hr
  exact ⟨svfBuf_result rfl hc hm hr, svfBuf_result rfl hc hm hr, svfBuf_result rfl hc hm hr⟩

/-! ## Another channel's state -/

/-- The state with the filter state of channel `e` replaced. -/
def State.withChannel (e : Chan) (d : BqDelay) (v : SvfChan) (s : State) : State := (s.setDelay e d).setSvf e v

section

variable {c e : Chan} (he : e ≠ c) (d : BqDelay) (v : SvfChan) (s : State)

include he

theorem State.getDelay_withChannel : (s.withChannel e d v).getDelay c = s.getDelay c :=
  State.getDelay_setDelay_other s d he.symm

theorem State.getSvf_withChannel : (s.withChannel e d v).getSvf c = s.getSvf c :=
  State.getSvf_setSvf_other (s.setDelay e d) v he.symm

theorem State.setDelay_withChannel (q : BqDelay) :
    (s.withChannel e d v).setDelay c q = (s.setDelay c q).withChannel e d v := by
  have hcomm : (s.bqd.set e d).set c q = (s.bqd.set c q).set e d :=
    Vector.set_comm d q (fun h => he (Fin.ext h))
  exact congrArg (fun w => ({ s with bqd := w, svfc := s.svfc.set e v } : State)) hcomm

theorem State.setSvf_withChannel (q : SvfChan) :
    (s.withChannel e d v).setSvf c q = (s.setSvf c q).withChannel e d v := by
  have hcomm : (s.svfc.set e v).set c q = (s.svfc.set c q).set e v :=
    Vector.set_comm v q (fun h => he (Fin.ext h))
  exact congrArg (fun w => ({ s with bqd := s.bqd.set e d, svfc := w } : State)) hcomm

theorem State.putDelay_withChannel (q : BqDelay × Memory) :
    (s.withChannel e d v).putDelay c q = (s.putDelay c q).withChannel e d v :=
  congrArg (fun u : State => u.setDmem q.2) (s.setDelay_withChannel he d v q.1)

theorem State.svfBuf_withChannel (o : SvfOut) (base count : Word) :
    (s.withChannel e d v).svfBuf o c base count = (s.svfBuf o c base count).withChannel e d v := by
  simp only [State.svfBuf, s.getSvf_withChannel he d v, s.setSvf_withChannel he d v]
  rfl

end

/-- Checks and fault entry do not touch the filter state. -/
theorem checked_withChannel {e : Chan} {d : BqDelay} {v : SvfChan} {s u u' : State} {c : Option Raised}
    (h : u' = u.withChannel e d v) :
    (s.withChannel e d v).checked c u' = mapNext (State.withChannel e d v) (s.checked c u) := by
  subst h
  cases c with
  | none => rfl
  | some e => rfl

theorem svfProc_withChannel {c e : Chan} (he : e ≠ c) (d : BqDelay) (v : SvfChan) (o : SvfOut) (xd xa : XReg) (s : State) :
    (s.withChannel e d v).svfProc o xd xa c = mapNext (State.withChannel e d v) (s.svfProc o xd xa c) := by
  refine checked_withChannel ?_
  rw [s.getSvf_withChannel he d v, s.setSvf_withChannel he d v]
  rfl

theorem svfBufCmd_withChannel {c e : Chan} (he : e ≠ c) (d : BqDelay) (v : SvfChan) (o : SvfOut) (ra rb : RReg) (s : State) :
    (s.withChannel e d v).svfBufCmd o ra rb c = mapNext (State.withChannel e d v) (s.svfBufCmd o ra rb c) :=
  checked_withChannel (s.svfBuf_withChannel he d v o _ _)

theorem exec_withChannel {i : Instr} {c e : Chan} (hi : processingChannel i = some c) (he : e ≠ c) (d : BqDelay)
    (v : SvfChan) (s : State) : exec i (s.withChannel e d v) = mapNext (State.withChannel e d v) (exec i s) := by
  cases i with
  | bqProc =>
    cases hi
    refine checked_withChannel ?_
    rw [s.getDelay_withChannel he d v, s.setDelay_withChannel he d v]
    rfl
  | bqBuf | bqOpt | bqOpt2 =>
    cases hi
    refine checked_withChannel ((s.putDelay_withChannel he d v _).trans ?_)
    rw [s.getDelay_withChannel he d v]
    rfl
  | svfProcHp => cases hi; exact svfProc_withChannel he d v .hp _ _ s
  | svfProcBp => cases hi; exact svfProc_withChannel he d v .bp _ _ s
  | svfProcLp => cases hi; exact svfProc_withChannel he d v .lp _ _ s
  | svfFrame =>
    cases hi
    refine checked_withChannel ?_
    rw [s.getSvf_withChannel he d v, s.setSvf_withChannel he d v]
    rfl
  | svfBufHp => cases hi; exact svfBufCmd_withChannel he d v .hp _ _ s
  | svfBufBp => cases hi; exact svfBufCmd_withChannel he d v .bp _ _ s
  | svfBufLp => cases hi; exact svfBufCmd_withChannel he d v .lp _ _ s
  | _ => cases hi

/-- Settles O60. -/
theorem channelsAreIndependent : Obligations.ChannelsAreIndependent := by
  intro i s t c e d v hi he ht
  have h := exec_withChannel hi he d v s
  rw [ht] at h
  exact h

end Sys2Proof.Machine
end

section
/-! PROOFS. The Polynomial Evaluator (41_polynomial.md R160 to R165): the loops that its commands run, and their values at a
zero; the silence of the filters (43_biquad.md R231; 44_svf.md R297). -/

namespace Sys2Proof.Machine

-- One proof at a time: proofs elaborated in parallel each reserve a thread's stack.
set_option Elab.async false

/-! ## Horner's scheme is the loop of R161 -/

theorem hornerLoop_succ (f : Fmt) (c : Nat → Pat) (n : Nat) (x : Pat) :
    hornerLoop f c (n + 2) x = fadd f (fmul f (hornerLoop f (fun i => c (i + 1)) (n + 1) x) x) (c 0) := by
  simp only [hornerLoop, Nat.add_sub_cancel, show n + 2 - 1 = n + 1 from rfl, List.range_succ_eq_map, List.foldr_cons,
    List.foldr_map, Nat.succ_eq_add_one]

theorem horner_range (f : Fmt) (c : Nat → Pat) (n : Nat) (x : Pat) :
    horner f ((List.range (n + 1)).map c) x = hornerLoop f c (n + 1) x := by
  induction n generalizing c with
  | zero => rfl
  | succ n ih =>
    have hcons : (List.range (n + 1 + 1)).map c = c 0 :: (List.range (n + 1)).map fun i => c (i + 1) := by
      rw [List.range_succ_eq_map, List.map_cons, List.map_map]
      rfl
    have hstep : horner f ((List.range (n + 1 + 1)).map c) x =
        fadd f (fmul f (horner f ((List.range (n + 1)).map fun i => c (i + 1)) x) x) (c 0) := by
      rw [hcons, List.range_succ_eq_map]
      rfl
    rw [hstep, ih, hornerLoop_succ]

/-- The coefficients that a command reads (R160). -/
theorem State.coeffs_eq (s : State) (rb : RReg) (n : Nat) :
    s.coeffs rb n = (List.range n).map (coefficient s (s.getR rb)) := rfl

theorem horner_coeffs (s : State) (rb : RReg) {n : BitVec 8} (hn : n ≠ 0) (x : Pat) :
    horner s.fmt (s.coeffs rb n.toNat) x = hornerLoop s.fmt (coefficient s (s.getR rb)) n.toNat x := by
  have hpos : n.toNat ≠ 0 := fun h => hn (BitVec.eq_of_toNat_eq h)
  obtain ⟨k, hk⟩ := Nat.exists_eq_succ_of_ne_zero hpos
  rw [s.coeffs_eq, hk, Nat.succ_eq_add_one, horner_range]

/-- Settles O31. -/
theorem polynomialResults : Obligations.PolynomialResults := by
  intro s xd xa rb rc n hn
  refine ⟨fun hr => ?_, fun hr => ?_, fun hr hc => ?_⟩
  · rw [← horner_coeffs s rb hn]
    exact setsX_of_exec (exec_of_checked rfl ((checkElems_eq_none _ _ _).2 hr))
  · have hzero : coefficient s (s.getR rb) 0 = elem s.fmt s.dmem (s.getR rb).toNat := by simp [coefficient]
    rw [hzero]
    exact setsX_of_exec (exec_of_checked rfl ((checkElems_eq_none _ _ _).2 hr))
  · rw [← horner_coeffs s rb hn, ← horner_coeffs s rc hn]
    exact setsX_of_exec (exec_of_checked rfl (by simp [firstRaised_eq_none, checkElems_eq_none, hr, hc]))

/-! ## Estrin's scheme (R163) -/

/-- The pairs of a level, with a `+0` behind an odd one. -/
theorem estrinPairs_padEven (f : Fmt) (x : Pat) : ∀ cs : List Pat,
    estrinPairs f x (padEven f cs) = (List.range ((cs.length + 1) / 2)).map fun i =>
      fadd f (cs.getD (2 * i) (zero f)) (fmul f (cs.getD (2 * i + 1) (zero f)) x)
  | [] => rfl
  | [_] => by simp [padEven, estrinPairs]
  | c :: d :: cs => by
    have hpad : padEven f (c :: d :: cs) = c :: d :: padEven f cs := by
      simp only [padEven, List.length_cons, show (cs.length + 1 + 1) % 2 = cs.length % 2 by omega]
      split
      · rfl
      · rfl
    have hlen : ((c :: d :: cs).length + 1) / 2 = (cs.length + 1) / 2 + 1 := by simp only [List.length_cons]; omega
    rw [hpad, hlen, List.range_succ_eq_map, List.map_cons, List.map_map, estrinPairs, estrinPairs_padEven f x cs]
    rfl

theorem length_estrinPairs_padEven (f : Fmt) (x : Pat) (cs : List Pat) :
    (estrinPairs f x (padEven f cs)).length = (cs.length + 1) / 2 := by
  rw [estrinPairs_padEven, List.length_map, List.length_range]

theorem estrinLevels_singleton (f : Fmt) (k : Nat) (c x : Pat) : estrinLevels f k [c] x = c := by
  cases k with
  | zero | succ => rfl

/-- The bound on the levels does not matter once it is large enough. -/
theorem estrinLevels_bound (f : Fmt) {k j : Nat} {cs : List Pat} (hk : cs.length ≤ k + 1) (hj : cs.length ≤ j + 1) (x : Pat) :
    estrinLevels f k cs x = estrinLevels f j cs x := by
  induction k generalizing j cs x with
  | zero =>
    match cs with
    | [] => cases j <;> rfl
    | [c] => rw [estrinLevels_singleton, estrinLevels_singleton]
    | _ :: _ :: _ => simp at hk
  | succ k ih =>
    match cs with
    | [] => cases j <;> rfl
    | [c] => rw [estrinLevels_singleton, estrinLevels_singleton]
    | c :: d :: cs =>
      cases j with
      | zero => simp at hj
      | succ j =>
        simp only [List.length_cons] at hk hj
        refine ih ?_ ?_ _
        · rw [length_estrinPairs_padEven, List.length_cons, List.length_cons]
          omega
        · rw [length_estrinPairs_padEven, List.length_cons, List.length_cons]
          omega

theorem estrin_level (f : Fmt) {cs : List Pat} (x : Pat) (h : 2 ≤ cs.length) :
    estrin f cs x = estrin f (estrinPairs f x (padEven f cs)) (fmul f x x) := by
  match cs with
  | c :: d :: cs =>
    change estrinLevels f (cs.length + 1) (estrinPairs f x (padEven f (c :: d :: cs))) _ = estrinLevels f _ _ _
    refine estrinLevels_bound f ?_ (Nat.le_succ _) _
    rw [length_estrinPairs_padEven, List.length_cons, List.length_cons]
    omega

/-- Settles O32. -/
theorem estrinResults : Obligations.EstrinResults := by
  refine ⟨fun s xd xa rb n _ hr => ?_, fun f c x => rfl, fun f cs x h => ?_⟩
  · exact setsX_of_exec (exec_of_checked rfl ((checkElems_eq_none _ _ _).2 hr))
  · rw [estrin_level f x h, estrinPairs_padEven]

/-! ## A zero has the value 0, and a value is rounded to itself -/

theorem realOf_eq_zero_iff {f : Fmt} {v : Pat} : realOf f v = some 0 ↔ isZero f v = true := by
  have hval : (0 : ℚ) = (signed (signOf f v) (magInt f (magOf f v)) : ℚ) * 2 ^ minExp f ↔ magOf f v = 0 := by
    rw [eq_comm, mul_eq_zero, or_iff_left (by positivity), ← (magInt_strictMono f).injective.eq_iff, magInt_zero]
    cases signOf f v with
    | true | false => simp [signed]
  rw [realOf_eq_some_iff, hval, isZero, decide_eq_true_eq]
  exact ⟨And.right, fun h => ⟨h ▸ infMag_pos f, h⟩⟩

/-- A value of the format rounds to itself (00_scope.md R9). -/
theorem RoundsTo.realOf_eq {f : Fmt} {c v : Pat} {y : ℚ} (hv : RoundsTo f (y : ℝ) v) (hc : realOf f c = some y) :
    realOf f v = some y := by
  have hlt : |(y : ℝ)| < (overflowBound f : ℝ) := by exact_mod_cast abs_realOf_lt_overflowBound hc
  obtain ⟨z, hz, hnear⟩ := hv.2.1 hlt
  have hle := (hnear c y hc).1
  rw [sub_self, abs_zero] at hle
  have hzy : (z : ℝ) = y := sub_eq_zero.1 (abs_eq_zero.1 (le_antisymm hle (abs_nonneg _)))
  rw [hz, Rat.cast_injective hzy]

theorem eq_of_signed_eq {n p : Bool} {a b : Nat} (ha : a ≠ 0) (h : signed n a = signed p b) : n = p ∧ a = b := by
  match n, p with
  | false, false | true, true => exact ⟨rfl, by simpa [signed] using h⟩
  | false, true | true, false =>
    simp only [signed, if_true, Bool.false_eq_true, if_false] at h
    omega

/-- Two patterns of the same value are equal, or both zeros (R8). -/
theorem eq_or_isZero_of_realOf {f : Fmt} {v c : Pat} {y : ℚ} (hv : realOf f v = some y) (hc : realOf f c = some y)
    (hfv : fits f v = true) (hfc : fits f c = true) : v = c ∨ (isZero f c = true ∧ isZero f v = true) := by
  by_cases h0 : y = 0
  · subst h0
    exact .inr ⟨realOf_eq_zero_iff.1 hc, realOf_eq_zero_iff.1 hv⟩
  left
  have hkv := orderKey_mem_Icc (isNan_of_realOf hv)
  have hkc := orderKey_mem_Icc (isNan_of_realOf hc)
  have hkey : keyValue f (orderKey f v) = keyValue f (orderKey f c) := by
    rw [(orderOf_eq_some_iff.1 (orderOf_of_realOf hv)).2, (orderOf_eq_some_iff.1 (orderOf_of_realOf hc)).2]
  have hord : signed (signOf f v) (magOf f v) = signed (signOf f c) (magOf f c) :=
    (keyValue_strictMonoOn f).injOn hkv hkc hkey
  have hpos : magOf f v ≠ 0 := fun h => h0 (by
    have hz : isZero f v = true := decide_eq_true h
    rw [realOf_eq_zero_iff.2 hz, Option.some.injEq] at hv
    exact hv.symm)
  obtain ⟨hsign, hmag⟩ := eq_of_signed_eq hpos hord
  rw [← pack_signOf_magOf hfv, ← pack_signOf_magOf hfc, hsign, hmag]

section Zeros

variable {f : Fmt} {a b c : Pat} {y z : ℚ}

theorem realOf_fmul_zero_right (ha : realOf f a = some y) (hb : realOf f b = some 0) : realOf f (fmul f a b) = some 0 := by
  have h := roundsTo_fmul ha hb
  rw [mul_zero] at h
  exact h.realOf_eq hb

theorem realOf_fadd_zero_left (ha : realOf f a = some 0) (hb : realOf f b = some y) : realOf f (fadd f a b) = some y := by
  have h := roundsTo_fadd ha hb
  rw [zero_add] at h
  exact h.realOf_eq hb

theorem realOf_fadd_zero_right (ha : realOf f a = some y) (hb : realOf f b = some 0) : realOf f (fadd f a b) = some y := by
  have h := roundsTo_fadd ha hb
  rw [add_zero] at h
  exact h.realOf_eq ha

theorem realOf_fsub_zeros (ha : realOf f a = some 0) (hb : realOf f b = some 0) : realOf f (fsub f a b) = some 0 := by
  have h := roundsTo_fsub ha hb
  rw [sub_zero] at h
  exact h.realOf_eq ha

theorem realOf_ffma_zero_factor (ha : realOf f a = some y) (hb : realOf f b = some 0) (hc : realOf f c = some z) :
    realOf f (ffma f a b c) = some z := by
  have h := roundsTo_ffma ha hb hc
  rw [mul_zero, zero_add] at h
  exact h.realOf_eq hc

end Zeros

/-! ## Evaluation at a zero (R165) -/

section AtZero

variable {f : Fmt} {x : Pat}

/-- Every power but the lowest is a finite value times a zero. -/
theorem realOf_horner_at_zero (hx : realOf f x = some 0) {c : Pat} {cs : List Pat} {y : ℚ} (hc : realOf f c = some y)
    (hcs : ∀ d ∈ cs, isFinite f d = true) : realOf f (horner f (c :: cs) x) = some y := by
  induction cs generalizing c y with
  | nil => exact hc
  | cons d cs ih =>
    obtain ⟨hd, hrest⟩ := List.forall_mem_cons.1 hcs
    obtain ⟨z, hz⟩ := (isFinite_eq_true_iff f d).1 hd
    exact realOf_fadd_zero_left (realOf_fmul_zero_right (ih hz hrest) hx) hc

theorem fits_horner_cons {c : Pat} (cs : List Pat) (hc : fits f c = true) : fits f (horner f (c :: cs) x) = true := by
  cases cs with
  | nil => exact hc
  | cons => exact fits_fadd f _ _

theorem estrinPairs_finite (hx : realOf f x = some 0) : ∀ cs : List Pat, (∀ c ∈ cs, isFinite f c = true) →
    ∀ c ∈ estrinPairs f x cs, isFinite f c = true
  | [], h => h
  | [_], h => h
  | c :: d :: cs, h => by
    obtain ⟨hc, hd, hrest⟩ := by simpa only [List.forall_mem_cons] using h
    obtain ⟨y, hy⟩ := (isFinite_eq_true_iff f c).1 hc
    obtain ⟨z, hz⟩ := (isFinite_eq_true_iff f d).1 hd
    rw [estrinPairs, List.forall_mem_cons]
    exact ⟨(isFinite_eq_true_iff f _).2 ⟨y, realOf_fadd_zero_right hy (realOf_fmul_zero_right hz hx)⟩,
      estrinPairs_finite hx cs hrest⟩

theorem padEven_finite {cs : List Pat} (h : ∀ c ∈ cs, isFinite f c = true) : ∀ c ∈ padEven f cs, isFinite f c = true := by
  have h0 : isFinite f (zero f) = true := by
    cases f with
    | b32 | b64 => decide
  unfold padEven
  split
  · simpa [or_imp, forall_and, h0] using h
  · exact h

/-- Each level leaves the value of the constant term, and the next runs at a zero again. -/
theorem estrinLevels_at_zero (k : Nat) (hx : realOf f x = some 0) {c : Pat} {cs : List Pat} {y : ℚ} (hc : realOf f c = some y)
    (hfit : fits f c = true) (hcs : ∀ d ∈ cs, isFinite f d = true) :
    realOf f (estrinLevels f k (c :: cs) x) = some y ∧ fits f (estrinLevels f k (c :: cs) x) = true := by
  induction k generalizing x c cs with
  | zero =>
    cases cs with
    | nil | cons => exact ⟨hc, hfit⟩
  | succ k ih =>
    cases cs with
    | nil => exact ⟨hc, hfit⟩
    | cons d cs =>
      have hall : ∀ e ∈ padEven f (c :: d :: cs), isFinite f e = true :=
        padEven_finite (List.forall_mem_cons.2 ⟨(isFinite_eq_true_iff f c).2 ⟨y, hc⟩, hcs⟩)
      obtain ⟨rest, hpad⟩ : ∃ rest, padEven f (c :: d :: cs) = c :: d :: rest := by
        unfold padEven
        split
        · exact ⟨_, rfl⟩
        · exact ⟨_, rfl⟩
      obtain ⟨z, hz⟩ := (isFinite_eq_true_iff f d).1 (hcs d List.mem_cons_self)
      have hpairs := estrinPairs_finite hx _ hall
      rw [hpad, estrinPairs] at hpairs
      rw [estrinLevels, hpad, estrinPairs]
      exact ih (realOf_fmul_zero_right hx hx) (realOf_fadd_zero_right hc (realOf_fmul_zero_right hz hx)) (fits_fadd f _ _)
        (List.forall_mem_cons.1 hpairs).2

end AtZero

/-- Settles O34. -/
theorem evaluationAtZeroGivesTheConstantTerm : Obligations.EvaluationAtZeroGivesTheConstantTerm := by
  intro f x c cs hx hfit hc hcs
  have h0 := realOf_eq_zero_iff.2 hx
  obtain ⟨y, hy⟩ := (isFinite_eq_true_iff f c).1 hc
  obtain ⟨hval, hefit⟩ := estrinLevels_at_zero (c :: cs).length h0 hy hfit hcs
  refine ⟨eq_or_isZero_of_realOf (realOf_horner_at_zero h0 hy hcs) hy (fits_horner_cons cs hfit) hfit,
    eq_or_isZero_of_realOf hval hy hefit hfit, fun c1 h1 => ?_⟩
  obtain ⟨z, hz⟩ := (isFinite_eq_true_iff f c1).1 h1
  exact eq_or_isZero_of_realOf (realOf_ffma_zero_factor hz h0 hy) hy (fits_ffma f _ _ _) hfit

/-! ## Silence -/

theorem zero_eq_pack (f : Fmt) : zero f = pack f false 0 := by
  cases f with
  | b32 | b64 => rfl

theorem fmul_finite_zero {f : Fmt} {a : Pat} (h : isFinite f a = true) : fmul f a (zero f) = pack f (signOf f a) 0 := by
  rw [zero_eq_pack, (finite_with_infinity_or_zero a false h).2.2.2.2.2.2.1, Bool.bne_false]

theorem fadd_zeros (f : Fmt) (n : Bool) : fadd f (pack f n 0) (zero f) = zero f := by
  rw [zero_eq_pack, (two_infinities_or_zeros f n false).2.2.2.2.2.2.2.1, Bool.and_false]

theorem fsub_zeros (f : Fmt) (n : Bool) : fsub f (zero f) (pack f n 0) = zero f := by
  rw [zero_eq_pack, (two_infinities_or_zeros f false n).2.2.2.2.2.2.2.2.1, Bool.false_and]

/-- Settles O56. -/
theorem silenceStaysSilent : Obligations.SilenceStaysSilent := by
  refine ⟨fun b k hf1 hq1 => ?_, fun f k x0 x1 x2 y1 y2 hb0 hb1 hb2 ha1 ha2 hx0 hx1 hx2 hy1 hy2 => ?_⟩
  · have hsilent : svfTap b.svfFb ⟨zero b.fmt, zero b.fmt, zero b.fmt⟩ = zero b.fmt := by
      cases b.svfFb with
      | hPrev | lPrev => rfl
    have hself : fsub b.fmt (zero b.fmt) (zero b.fmt) = zero b.fmt := fsub_zeros b.fmt false
    simp only [svfStep, hsilent, hself, fmul_finite_zero hq1, fsub_zeros, fmul_finite_zero hf1, fadd_zeros]
  · have product {k x : Pat} (hk : isFinite f k = true) (hx : isZero f x = true) : realOf f (fmul f k x) = some 0 := by
      obtain ⟨y, hy⟩ := (isFinite_eq_true_iff f k).1 hk
      exact realOf_fmul_zero_right hy (realOf_eq_zero_iff.2 hx)
    have hsum := realOf_fadd_zero_left (realOf_fadd_zero_left (product hb0 hx0) (product hb1 hx1)) (product hb2 hx2)
    exact realOf_eq_zero_iff.1 (realOf_fsub_zeros (realOf_fsub_zeros hsum (product ha1 hy1)) (product ha2 hy2))

end Sys2Proof.Machine
end
